-- ==== Sys2Proof/Word.lean ====
section
/-! DEFINITION. The widths of the 16b40: the word is the smallest addressable unit of data, 16 bits
(00_scope.md glossary, 20_memory.md R80). -/

namespace Sys2Proof

/-- A word, 2 bytes wide: a register, an address, an instruction (20_memory.md R80, R81). -/
abbrev Word := BitVec 16

/-- The number of an internal register, R0..R7 (10_state.md R20). -/
abbrev RegNum := BitVec 3

end Sys2Proof
end

