-- ==== Sys2Proof/Syntax.lean ====
section
/-! DEFINITION. The instructions of the 16b40: one constructor for each row of spec/opcode_table.json, in
the table's order. A constructor holds every bit of its word that the row does not fix, the ignored
fields of 30_encoding.md R167 among them, so that the instruction word can be given back whole where an
interrupt records it (60_exceptions.md R332, R336; log 28). Operands stand in assembler order
(30_encoding.md R170, R171). -/

namespace Sys2Proof

/-- The condition field LEG of JCU, JCS, MCU, MCS, named by its three bits (41_control.md R204). -/
inductive Leg where
  | l000 | l001 | l010 | l011 | l100 | l101 | l110 | l111
deriving DecidableEq, Repr

/-- The external registers by number, 0 to 7 (10_state.md R25). Number 1 is CF when read and UI when
written. -/
inductive ExtReg where
  | ip | cfui | lr | sp | ofs | fl | f1 | f2
deriving DecidableEq, Repr

/-- The instructions. Suffix R: register form. Suffix I: immediate form. `inv`: a row of the table that
holds no instruction and raises interrupt 6 (30_encoding.md R165). -/
inductive Instr where
  /-- REG_REG operation 00000: invalid (R161, R165). -/
  | invRR00 (rd : RegNum) (rs : RegNum)
  /-- REG_REG operation 00001: invalid (R161, R165). -/
  | invRR01 (rd : RegNum) (rs : RegNum)
  /-- REG_REG operation 00010: invalid (R161, R165). -/
  | invRR02 (rd : RegNum) (rs : RegNum)
  /-- REG_REG operation 00011: invalid (R161, R165). -/
  | invRR03 (rd : RegNum) (rs : RegNum)
  /-- REG_REG operation 00100: invalid (R161, R165). -/
  | invRR04 (rd : RegNum) (rs : RegNum)
  /-- REG_REG operation 00101: invalid (R161, R165). -/
  | invRR05 (rd : RegNum) (rs : RegNum)
  /-- REG_REG operation 00110: invalid (R161, R165). -/
  | invRR06 (rd : RegNum) (rs : RegNum)
  /-- REG_REG operation 00111: invalid (R161, R165). -/
  | invRR07 (rd : RegNum) (rs : RegNum)
  /-- `prd d, s`: read the port named by a register (R220). -/
  | prdR (rd : RegNum) (rs : RegNum)
  /-- `pwr d, s`: write the port named by a register (R221). -/
  | pwrR (rd : RegNum) (rs : RegNum)
  /-- `xrd d, s`: read an external register (R226). -/
  | xrd (rd : RegNum) (x : ExtReg)
  /-- `xwr d, s`: write an external register (R227). -/
  | xwrR (x : ExtReg) (rs : RegNum)
  /-- `mrd d, s`: memory read (R240). -/
  | mrdR (rd : RegNum) (rs : RegNum)
  /-- `mwr d, s`: memory write (R241). -/
  | mwrR (rd : RegNum) (rs : RegNum)
  /-- `mro d, s`: memory read at OF + R[s] (R242). -/
  | mroR (rd : RegNum) (rs : RegNum)
  /-- `mwo d, s`: memory write at OF + R[d] (R243). -/
  | mwoR (rd : RegNum) (rs : RegNum)
  /-- `mul d, s` (R260). -/
  | mulR (rd : RegNum) (rs : RegNum)
  /-- `cmp d, s` (R262). -/
  | cmpR (rd : RegNum) (rs : RegNum)
  /-- `div d, s` (R264). -/
  | divR (rd : RegNum) (rs : RegNum)
  /-- `tst d, s` (R266). -/
  | tstR (rd : RegNum) (rs : RegNum)
  /-- `mov d, s` (R268). -/
  | movR (rd : RegNum) (rs : RegNum)
  /-- REG_REG operation 10101: invalid (R161, R165). -/
  | invRR15 (rd : RegNum) (rs : RegNum)
  /-- REG_REG operation 10110: invalid (R161, R165). -/
  | invRR16 (rd : RegNum) (rs : RegNum)
  /-- REG_REG operation 10111: invalid (R161, R165). -/
  | invRR17 (rd : RegNum) (rs : RegNum)
  /-- `add d, s` (R281). -/
  | addR (rd : RegNum) (rs : RegNum)
  /-- `sub d, s` (R282). -/
  | subR (rd : RegNum) (rs : RegNum)
  /-- `not d, s` (R283). -/
  | notR (rd : RegNum) (rs : RegNum)
  /-- `and d, s` (R284). -/
  | andR (rd : RegNum) (rs : RegNum)
  /-- `orr d, s` (R285). -/
  | orrR (rd : RegNum) (rs : RegNum)
  /-- `xor d, s` (R286). -/
  | xorR (rd : RegNum) (rs : RegNum)
  /-- `shl d, s` (R287). -/
  | shlR (rd : RegNum) (rs : RegNum)
  /-- `shr d, s` (R288). -/
  | shrR (rd : RegNum) (rs : RegNum)
  /-- `int imm8`: interrupt (R180). -/
  | int (imm : BitVec 8)
  /-- `irt`: interrupt return; the immediate is ignored (R181). -/
  | irt (ign : BitVec 8)
  /-- `hlt`: halt until an interrupt; the immediate is ignored (R182). -/
  | hlt (ign : BitVec 8)
  /-- `hcf`: halt for good; the immediate is ignored (R183). -/
  | hcf (ign : BitVec 8)
  /-- Long opcode 00001100: invalid (R162, R165). -/
  | invL0C (ign : BitVec 8)
  /-- Long opcode 00001101: invalid (R162, R165). -/
  | invL0D (ign : BitVec 8)
  /-- `pxr d, imm5`: read PX[imm5] (R184). -/
  | pxr (rd : RegNum) (n : BitVec 5)
  /-- `pxw imm5, s`: write PX[imm5] (R185). -/
  | pxw (n : BitVec 5) (rs : RegNum)
  /-- `cal imm11`: relative call (R200). -/
  | calI (imm : BitVec 11)
  /-- `jmp imm11`: relative jump (R201). -/
  | jmpI (imm : BitVec 11)
  /-- `jcu LEG imm8`: relative jump on an unsigned condition (R202). -/
  | jcu (leg : Leg) (imm : BitVec 8)
  /-- `jcs LEG imm8`: relative jump on a signed condition (R203). -/
  | jcs (leg : Leg) (imm : BitVec 8)
  /-- Programmable instruction #slot, extension P (R168, R187). -/
  | prog (slot : BitVec 4) (body : BitVec 8)
  /-- `prd d, imm8`: read port imm16 (R220). -/
  | prdI (rd : RegNum) (imm : BitVec 8)
  /-- `pwr imm8, s`: write port imm16 (R221). -/
  | pwrI (imm : BitVec 8) (rs : RegNum)
  /-- Short opcode 01010: invalid, XRD has no immediate form (R160, R165). -/
  | invS0A (ign : BitVec 11)
  /-- `xwr d, imm8`: write an external register (R227). -/
  | xwrI (x : ExtReg) (imm : BitVec 8)
  /-- `mrd d, imm8`: memory read at imm16 (R240). -/
  | mrdI (rd : RegNum) (imm : BitVec 8)
  /-- `mwr imm8, s`: memory write at imm16 (R241). -/
  | mwrI (imm : BitVec 8) (rs : RegNum)
  /-- `mro d, imm8`: memory read at OF + imm16 (R242). -/
  | mroI (rd : RegNum) (imm : BitVec 8)
  /-- `mwo imm8, s`: memory write at OF + imm16 (R243). -/
  | mwoI (imm : BitVec 8) (rs : RegNum)
  /-- `mul d, imm8` (R260). -/
  | mulI (rd : RegNum) (imm : BitVec 8)
  /-- `cmp d, imm8` (R262). -/
  | cmpI (rd : RegNum) (imm : BitVec 8)
  /-- `div d, imm8` (R264). -/
  | divI (rd : RegNum) (imm : BitVec 8)
  /-- `tst d, imm8` (R266). -/
  | tstI (rd : RegNum) (imm : BitVec 8)
  /-- `mov d, imm8` (R268). -/
  | movI (rd : RegNum) (imm : BitVec 8)
  /-- `pop d`; the immediate is ignored (R248). -/
  | pop (rd : RegNum) (ign : BitVec 5)
  /-- `psh s`; the immediate is ignored (R249). -/
  | psh (rs : RegNum) (ign : BitVec 5)
  /-- `cal s`: relative call by a register; the immediate is ignored (R205). -/
  | calR (rs : RegNum) (ign : BitVec 5)
  /-- `jmp s`: relative jump by a register; the immediate is ignored (R206). -/
  | jmpR (rs : RegNum) (ign : BitVec 5)
  /-- `ret SOCZ`: return, setting the four flags (R207). -/
  | ret (socz : BitVec 4)
  /-- Long opcode 10101101: invalid (R163, R165). -/
  | invLAD (ign : BitVec 8)
  /-- Long opcode 10101110: invalid (R163, R165). -/
  | invLAE (ign : BitVec 8)
  /-- `nop`; the immediate is ignored (R208). -/
  | nop (ign : BitVec 8)
  /-- `mcu LEG d, s`: move on an unsigned condition (R275). -/
  | mcu (leg : Leg) (rd : RegNum) (rs : RegNum)
  /-- `mcs LEG d, s`: move on a signed condition (R276). -/
  | mcs (leg : Leg) (rd : RegNum) (rs : RegNum)
  /-- `add d, imm8` (R281). -/
  | addI (rd : RegNum) (imm : BitVec 8)
  /-- `sub d, imm8` (R282). -/
  | subI (rd : RegNum) (imm : BitVec 8)
  /-- `not d, imm8` (R283). -/
  | notI (rd : RegNum) (imm : BitVec 8)
  /-- `and d, imm8` (R284). -/
  | andI (rd : RegNum) (imm : BitVec 8)
  /-- `orr d, imm8` (R285). -/
  | orrI (rd : RegNum) (imm : BitVec 8)
  /-- `xor d, imm8` (R286). -/
  | xorI (rd : RegNum) (imm : BitVec 8)
  /-- `shl d, imm8` (R287). -/
  | shlI (rd : RegNum) (imm : BitVec 8)
  /-- `shr d, imm8` (R288). -/
  | shrI (rd : RegNum) (imm : BitVec 8)
deriving DecidableEq, Repr

end Sys2Proof
end

