-- ==== Sys2Proof/Decode.lean ====
section
/-! DEFINITION. Decoding an instruction word (30_encoding.md R130-R168), and after it the encoder, both from
the format diagrams R135-R142 and the opcode map R160-R163. The spec's decode tree R132 is followed as it
stands. `Instr.rowMask` and `Instr.rowMatch` are the mask and match of spec/opcode_table.json. -/

namespace Sys2Proof

/-- Why a word is no instruction and no invalid word of the table either. -/
inductive DecodeRefusal where
  /-- A bit that MUST be 0 is 1: `w[4]` or `w[0]` of MCU and MCS, `w[3:0]` of RET (30_encoding.md R166). -/
  | mustBeZeroBit
deriving DecidableEq, Repr

/-! ## Fields -/

/-- Bits `hi:lo` of a word, given as `lo` and a width. -/
abbrev bitsAt (w : Word) (lo len : Nat) : BitVec len := w.extractLsb' lo len

/-- The condition a 3-bit LEG field names (41_control.md R204). -/
def Leg.ofBits (b : BitVec 3) : Leg :=
  match b.toNat with
  | 0 => .l000
  | 1 => .l001
  | 2 => .l010
  | 3 => .l011
  | 4 => .l100
  | 5 => .l101
  | 6 => .l110
  | _ => .l111

/-- The 3-bit field of a condition, L = bit 2, E = bit 1, G = bit 0 (30_encoding.md R138). -/
def Leg.toBits : Leg → BitVec 3
  | .l000 => 0 | .l001 => 1 | .l010 => 2 | .l011 => 3
  | .l100 => 4 | .l101 => 5 | .l110 => 6 | .l111 => 7

/-- The external register a 3-bit number names (10_state.md R25). -/
def ExtReg.ofBits (b : BitVec 3) : ExtReg :=
  match b.toNat with
  | 0 => .ip
  | 1 => .cfui
  | 2 => .lr
  | 3 => .sp
  | 4 => .ofs
  | 5 => .fl
  | 6 => .f1
  | _ => .f2

/-- The number of an external register (10_state.md R25). -/
def ExtReg.toBits : ExtReg → BitVec 3
  | .ip => 0 | .cfui => 1 | .lr => 2 | .sp => 3
  | .ofs => 4 | .fl => 5 | .f1 => 6 | .f2 => 7

/-- imm8 of short REG_IMM: `w[0] ++ w[10:8] ++ w[4:1]` (30_encoding.md R136, R146). -/
def imm8RegImm (w : Word) : BitVec 8 := bitsAt w 0 1 ++ bitsAt w 8 3 ++ bitsAt w 1 4

/-- imm11 of LONG_IMMEDIATE: `w[0] ++ w[10:1]` (30_encoding.md R137, R146). -/
def imm11Long (w : Word) : BitVec 11 := bitsAt w 0 1 ++ bitsAt w 1 10

/-- imm8 of JMP_CCC: `w[0] ++ w[10:4]` (30_encoding.md R138, R146). -/
def imm8JmpCcc (w : Word) : BitVec 8 := bitsAt w 0 1 ++ bitsAt w 4 7

/-- imm8 of long IMMEDIATE: `w[0] ++ w[7:1]` (30_encoding.md R140, R146). -/
def imm8LongImm (w : Word) : BitVec 8 := bitsAt w 0 1 ++ bitsAt w 1 7

/-- imm5 of long REG_IMM: `w[0] ++ w[4:1]` (30_encoding.md R141, R146). -/
def imm5LongRegImm (w : Word) : BitVec 5 := bitsAt w 0 1 ++ bitsAt w 1 4

/-! ## The decode tree (30_encoding.md R132) -/

/-- REG_REG operations, selected by `w[4:0]` (30_encoding.md R161). -/
def decodeRegReg (w : Word) : Instr :=
  let rs := bitsAt w 8 3
  let rd := bitsAt w 5 3
  match (bitsAt w 0 5).toNat with
  | 0 => .invRR00 rd rs
  | 1 => .invRR01 rd rs
  | 2 => .invRR02 rd rs
  | 3 => .invRR03 rd rs
  | 4 => .invRR04 rd rs
  | 5 => .invRR05 rd rs
  | 6 => .invRR06 rd rs
  | 7 => .invRR07 rd rs
  | 8 => .prdR rd rs
  | 9 => .pwrR rd rs
  | 10 => .xrd rd (ExtReg.ofBits rs)
  | 11 => .xwrR (ExtReg.ofBits rd) rs
  | 12 => .mrdR rd rs
  | 13 => .mwrR rd rs
  | 14 => .mroR rd rs
  | 15 => .mwoR rd rs
  | 16 => .mulR rd rs
  | 17 => .cmpR rd rs
  | 18 => .divR rd rs
  | 19 => .tstR rd rs
  | 20 => .movR rd rs
  | 21 => .invRR15 rd rs
  | 22 => .invRR16 rd rs
  | 23 => .invRR17 rd rs
  | 24 => .addR rd rs
  | 25 => .subR rd rs
  | 26 => .notR rd rs
  | 27 => .andR rd rs
  | 28 => .orrR rd rs
  | 29 => .xorR rd rs
  | 30 => .shlR rd rs
  | _ => .shrR rd rs

/-- Long opcodes under 00001, selected by `w[10:8]` (30_encoding.md R162). -/
def decodeLong01 (w : Word) : Instr :=
  let imm := imm8LongImm w
  let reg := bitsAt w 5 3
  let num := imm5LongRegImm w
  match (bitsAt w 8 3).toNat with
  | 0 => .int imm
  | 1 => .irt imm
  | 2 => .hlt imm
  | 3 => .hcf imm
  | 4 => .invL0C imm
  | 5 => .invL0D imm
  | 6 => .pxr reg num
  | _ => .pxw num reg

/-- Long opcodes under 10101, selected by `w[10:8]` (30_encoding.md R163). RET with a bit of `w[3:0]` set is
no instruction (R166). -/
def decodeLong15 (w : Word) : Except DecodeRefusal Instr :=
  let imm := imm8LongImm w
  let reg := bitsAt w 5 3
  let ign := imm5LongRegImm w
  match (bitsAt w 8 3).toNat with
  | 0 => .ok (.pop reg ign)
  | 1 => .ok (.psh reg ign)
  | 2 => .ok (.calR reg ign)
  | 3 => .ok (.jmpR reg ign)
  | 4 => if bitsAt w 0 4 = 0 then .ok (.ret (bitsAt w 4 4)) else .error .mustBeZeroBit
  | 5 => .ok (.invLAD imm)
  | 6 => .ok (.invLAE imm)
  | _ => .ok (.nop imm)

/-- MCU and MCS: `w[4]` and `w[0]` must be 0 (30_encoding.md R139, R166). -/
def decodeMovCcc (mk : Leg → RegNum → RegNum → Instr) (w : Word) : Except DecodeRefusal Instr :=
  if bitsAt w 4 1 = 0 ∧ bitsAt w 0 1 = 0 then
    .ok (mk (Leg.ofBits (bitsAt w 1 3)) (bitsAt w 5 3) (bitsAt w 8 3))
  else .error .mustBeZeroBit

/-- The decoder: total on words; a word whose must-be-zero bit is 1 is rejected by name, every other word
is an instruction or an invalid word of the table (30_encoding.md R132, R160-R168). -/
def decode (w : Word) : Except DecodeRefusal Instr :=
  let reg := bitsAt w 5 3
  let imm := imm8RegImm w
  let leg := Leg.ofBits (bitsAt w 1 3)
  match (bitsAt w 11 5).toNat with
  | 0 => .ok (decodeRegReg w)
  | 1 => .ok (decodeLong01 w)
  | 2 => .ok (.calI (imm11Long w))
  | 3 => .ok (.jmpI (imm11Long w))
  | 4 => .ok (.jcu leg (imm8JmpCcc w))
  | 5 => .ok (.jcs leg (imm8JmpCcc w))
  | 6 => .ok (.prog (bitsAt w 8 4) (bitsAt w 0 8))
  | 7 => .ok (.prog (bitsAt w 8 4) (bitsAt w 0 8))
  | 8 => .ok (.prdI reg imm)
  | 9 => .ok (.pwrI imm reg)
  | 10 => .ok (.invS0A (imm11Long w))
  | 11 => .ok (.xwrI (ExtReg.ofBits reg) imm)
  | 12 => .ok (.mrdI reg imm)
  | 13 => .ok (.mwrI imm reg)
  | 14 => .ok (.mroI reg imm)
  | 15 => .ok (.mwoI imm reg)
  | 16 => .ok (.mulI reg imm)
  | 17 => .ok (.cmpI reg imm)
  | 18 => .ok (.divI reg imm)
  | 19 => .ok (.tstI reg imm)
  | 20 => .ok (.movI reg imm)
  | 21 => decodeLong15 w
  | 22 => decodeMovCcc .mcu w
  | 23 => decodeMovCcc .mcs w
  | 24 => .ok (.addI reg imm)
  | 25 => .ok (.subI reg imm)
  | 26 => .ok (.notI reg imm)
  | 27 => .ok (.andI reg imm)
  | 28 => .ok (.orrI reg imm)
  | 29 => .ok (.xorI reg imm)
  | 30 => .ok (.shlI reg imm)
  | _ => .ok (.shrI reg imm)

/-- The instruction the decoder reads from a row of spec/opcode_table.json whose bits are `w`: one 16-bit
word, fetched whole (30_encoding.md R130), the bits above `nbits` 0. -/
def decodeTableWord (nbits w : Nat) : Option Instr :=
  match decode (BitVec.ofNat 16 (w % 2 ^ nbits)) with
  | .ok i => some i
  | .error _ => none

/-! ## The encoder -/

/-- REG_REG, `00000SSS DDDOOOOO` (30_encoding.md R135). -/
def encRegReg (op : BitVec 5) (s d : RegNum) : Word := 0#5 ++ s ++ d ++ op

/-- Short REG_IMM, `OOOOOIII RRRIIIII`, the immediate's top bit last (30_encoding.md R136, R145). -/
def encRegImm (op : BitVec 5) (r : RegNum) (imm : BitVec 8) : Word :=
  op ++ imm.extractLsb' 4 3 ++ r ++ imm.extractLsb' 0 4 ++ imm.extractLsb' 7 1

/-- LONG_IMMEDIATE, `OOOOOIII IIIIIIII` (30_encoding.md R137, R145). -/
def encLong11 (op : BitVec 5) (imm : BitVec 11) : Word :=
  op ++ imm.extractLsb' 0 10 ++ imm.extractLsb' 10 1

/-- JMP_CCC, `OOOOOIII IIIIFFFI` (30_encoding.md R138, R145). -/
def encJmpCcc (op : BitVec 5) (leg : Leg) (imm : BitVec 8) : Word :=
  op ++ imm.extractLsb' 0 7 ++ leg.toBits ++ imm.extractLsb' 7 1

/-- MOV_CCC, `OOOOOSSS DDD0FFF0` (30_encoding.md R139). -/
def encMovCcc (op : BitVec 5) (leg : Leg) (s d : RegNum) : Word :=
  op ++ s ++ d ++ 0#1 ++ leg.toBits ++ 0#1

/-- Long IMMEDIATE, `OOOOOOOO IIIIIIII` (30_encoding.md R140, R145). -/
def encLongImm (op : BitVec 8) (imm : BitVec 8) : Word :=
  op ++ imm.extractLsb' 0 7 ++ imm.extractLsb' 7 1

/-- Long REG_IMM, `OOOOOOOO RRRIIIII` (30_encoding.md R141, R145). -/
def encLongRegImm (op : BitVec 8) (r : RegNum) (imm : BitVec 5) : Word :=
  op ++ r ++ imm.extractLsb' 0 4 ++ imm.extractLsb' 4 1

/-- The word of an instruction (30_encoding.md R135-R142, R160-R168). -/
def encode : Instr → Word
  | .invRR00 rd rs => encRegReg 0#5 rs rd
  | .invRR01 rd rs => encRegReg 1#5 rs rd
  | .invRR02 rd rs => encRegReg 2#5 rs rd
  | .invRR03 rd rs => encRegReg 3#5 rs rd
  | .invRR04 rd rs => encRegReg 4#5 rs rd
  | .invRR05 rd rs => encRegReg 5#5 rs rd
  | .invRR06 rd rs => encRegReg 6#5 rs rd
  | .invRR07 rd rs => encRegReg 7#5 rs rd
  | .prdR rd rs => encRegReg 8#5 rs rd
  | .pwrR rd rs => encRegReg 9#5 rs rd
  | .xrd rd x => encRegReg 10#5 x.toBits rd
  | .xwrR x rs => encRegReg 11#5 rs x.toBits
  | .mrdR rd rs => encRegReg 12#5 rs rd
  | .mwrR rd rs => encRegReg 13#5 rs rd
  | .mroR rd rs => encRegReg 14#5 rs rd
  | .mwoR rd rs => encRegReg 15#5 rs rd
  | .mulR rd rs => encRegReg 16#5 rs rd
  | .cmpR rd rs => encRegReg 17#5 rs rd
  | .divR rd rs => encRegReg 18#5 rs rd
  | .tstR rd rs => encRegReg 19#5 rs rd
  | .movR rd rs => encRegReg 20#5 rs rd
  | .invRR15 rd rs => encRegReg 21#5 rs rd
  | .invRR16 rd rs => encRegReg 22#5 rs rd
  | .invRR17 rd rs => encRegReg 23#5 rs rd
  | .addR rd rs => encRegReg 24#5 rs rd
  | .subR rd rs => encRegReg 25#5 rs rd
  | .notR rd rs => encRegReg 26#5 rs rd
  | .andR rd rs => encRegReg 27#5 rs rd
  | .orrR rd rs => encRegReg 28#5 rs rd
  | .xorR rd rs => encRegReg 29#5 rs rd
  | .shlR rd rs => encRegReg 30#5 rs rd
  | .shrR rd rs => encRegReg 31#5 rs rd
  | .int imm => encLongImm 0x08#8 imm
  | .irt ign => encLongImm 0x09#8 ign
  | .hlt ign => encLongImm 0x0A#8 ign
  | .hcf ign => encLongImm 0x0B#8 ign
  | .invL0C ign => encLongImm 0x0C#8 ign
  | .invL0D ign => encLongImm 0x0D#8 ign
  | .pxr rd n => encLongRegImm 0x0E#8 rd n
  | .pxw n rs => encLongRegImm 0x0F#8 rs n
  | .calI imm => encLong11 2#5 imm
  | .jmpI imm => encLong11 3#5 imm
  | .jcu leg imm => encJmpCcc 4#5 leg imm
  | .jcs leg imm => encJmpCcc 5#5 leg imm
  | .prog slot body => 3#4 ++ slot ++ body
  | .prdI rd imm => encRegImm 8#5 rd imm
  | .pwrI imm rs => encRegImm 9#5 rs imm
  | .invS0A ign => encLong11 10#5 ign
  | .xwrI x imm => encRegImm 11#5 x.toBits imm
  | .mrdI rd imm => encRegImm 12#5 rd imm
  | .mwrI imm rs => encRegImm 13#5 rs imm
  | .mroI rd imm => encRegImm 14#5 rd imm
  | .mwoI imm rs => encRegImm 15#5 rs imm
  | .mulI rd imm => encRegImm 16#5 rd imm
  | .cmpI rd imm => encRegImm 17#5 rd imm
  | .divI rd imm => encRegImm 18#5 rd imm
  | .tstI rd imm => encRegImm 19#5 rd imm
  | .movI rd imm => encRegImm 20#5 rd imm
  | .pop rd ign => encLongRegImm 0xA8#8 rd ign
  | .psh rs ign => encLongRegImm 0xA9#8 rs ign
  | .calR rs ign => encLongRegImm 0xAA#8 rs ign
  | .jmpR rs ign => encLongRegImm 0xAB#8 rs ign
  | .ret socz => 0xAC#8 ++ socz ++ 0#4
  | .invLAD ign => encLongImm 0xAD#8 ign
  | .invLAE ign => encLongImm 0xAE#8 ign
  | .nop ign => encLongImm 0xAF#8 ign
  | .mcu leg rd rs => encMovCcc 22#5 leg rs rd
  | .mcs leg rd rs => encMovCcc 23#5 leg rs rd
  | .addI rd imm => encRegImm 24#5 rd imm
  | .subI rd imm => encRegImm 25#5 rd imm
  | .notI rd imm => encRegImm 26#5 rd imm
  | .andI rd imm => encRegImm 27#5 rd imm
  | .orrI rd imm => encRegImm 28#5 rd imm
  | .xorI rd imm => encRegImm 29#5 rd imm
  | .shlI rd imm => encRegImm 30#5 rd imm
  | .shrI rd imm => encRegImm 31#5 rd imm

/-! ## The rows of spec/opcode_table.json -/

/-- The mask of an instruction's row: the bits the row fixes. -/
def Instr.rowMask : Instr → Word
  | .invRR00 .. => 0xF81F#16
  | .invRR01 .. => 0xF81F#16
  | .invRR02 .. => 0xF81F#16
  | .invRR03 .. => 0xF81F#16
  | .invRR04 .. => 0xF81F#16
  | .invRR05 .. => 0xF81F#16
  | .invRR06 .. => 0xF81F#16
  | .invRR07 .. => 0xF81F#16
  | .prdR .. => 0xF81F#16
  | .pwrR .. => 0xF81F#16
  | .xrd .. => 0xF81F#16
  | .xwrR .. => 0xF81F#16
  | .mrdR .. => 0xF81F#16
  | .mwrR .. => 0xF81F#16
  | .mroR .. => 0xF81F#16
  | .mwoR .. => 0xF81F#16
  | .mulR .. => 0xF81F#16
  | .cmpR .. => 0xF81F#16
  | .divR .. => 0xF81F#16
  | .tstR .. => 0xF81F#16
  | .movR .. => 0xF81F#16
  | .invRR15 .. => 0xF81F#16
  | .invRR16 .. => 0xF81F#16
  | .invRR17 .. => 0xF81F#16
  | .addR .. => 0xF81F#16
  | .subR .. => 0xF81F#16
  | .notR .. => 0xF81F#16
  | .andR .. => 0xF81F#16
  | .orrR .. => 0xF81F#16
  | .xorR .. => 0xF81F#16
  | .shlR .. => 0xF81F#16
  | .shrR .. => 0xF81F#16
  | .int .. => 0xFF00#16
  | .irt .. => 0xFF00#16
  | .hlt .. => 0xFF00#16
  | .hcf .. => 0xFF00#16
  | .invL0C .. => 0xFF00#16
  | .invL0D .. => 0xFF00#16
  | .pxr .. => 0xFF00#16
  | .pxw .. => 0xFF00#16
  | .calI .. => 0xF800#16
  | .jmpI .. => 0xF800#16
  | .jcu .. => 0xF800#16
  | .jcs .. => 0xF800#16
  | .prog .. => 0xF000#16
  | .prdI .. => 0xF800#16
  | .pwrI .. => 0xF800#16
  | .invS0A .. => 0xF800#16
  | .xwrI .. => 0xF800#16
  | .mrdI .. => 0xF800#16
  | .mwrI .. => 0xF800#16
  | .mroI .. => 0xF800#16
  | .mwoI .. => 0xF800#16
  | .mulI .. => 0xF800#16
  | .cmpI .. => 0xF800#16
  | .divI .. => 0xF800#16
  | .tstI .. => 0xF800#16
  | .movI .. => 0xF800#16
  | .pop .. => 0xFF00#16
  | .psh .. => 0xFF00#16
  | .calR .. => 0xFF00#16
  | .jmpR .. => 0xFF00#16
  | .ret .. => 0xFF0F#16
  | .invLAD .. => 0xFF00#16
  | .invLAE .. => 0xFF00#16
  | .nop .. => 0xFF00#16
  | .mcu .. => 0xF811#16
  | .mcs .. => 0xF811#16
  | .addI .. => 0xF800#16
  | .subI .. => 0xF800#16
  | .notI .. => 0xF800#16
  | .andI .. => 0xF800#16
  | .orrI .. => 0xF800#16
  | .xorI .. => 0xF800#16
  | .shlI .. => 0xF800#16
  | .shrI .. => 0xF800#16

/-- The match of an instruction's row: the values of the bits the row fixes. -/
def Instr.rowMatch : Instr → Word
  | .invRR00 .. => 0x0000#16
  | .invRR01 .. => 0x0001#16
  | .invRR02 .. => 0x0002#16
  | .invRR03 .. => 0x0003#16
  | .invRR04 .. => 0x0004#16
  | .invRR05 .. => 0x0005#16
  | .invRR06 .. => 0x0006#16
  | .invRR07 .. => 0x0007#16
  | .prdR .. => 0x0008#16
  | .pwrR .. => 0x0009#16
  | .xrd .. => 0x000A#16
  | .xwrR .. => 0x000B#16
  | .mrdR .. => 0x000C#16
  | .mwrR .. => 0x000D#16
  | .mroR .. => 0x000E#16
  | .mwoR .. => 0x000F#16
  | .mulR .. => 0x0010#16
  | .cmpR .. => 0x0011#16
  | .divR .. => 0x0012#16
  | .tstR .. => 0x0013#16
  | .movR .. => 0x0014#16
  | .invRR15 .. => 0x0015#16
  | .invRR16 .. => 0x0016#16
  | .invRR17 .. => 0x0017#16
  | .addR .. => 0x0018#16
  | .subR .. => 0x0019#16
  | .notR .. => 0x001A#16
  | .andR .. => 0x001B#16
  | .orrR .. => 0x001C#16
  | .xorR .. => 0x001D#16
  | .shlR .. => 0x001E#16
  | .shrR .. => 0x001F#16
  | .int .. => 0x0800#16
  | .irt .. => 0x0900#16
  | .hlt .. => 0x0A00#16
  | .hcf .. => 0x0B00#16
  | .invL0C .. => 0x0C00#16
  | .invL0D .. => 0x0D00#16
  | .pxr .. => 0x0E00#16
  | .pxw .. => 0x0F00#16
  | .calI .. => 0x1000#16
  | .jmpI .. => 0x1800#16
  | .jcu .. => 0x2000#16
  | .jcs .. => 0x2800#16
  | .prog .. => 0x3000#16
  | .prdI .. => 0x4000#16
  | .pwrI .. => 0x4800#16
  | .invS0A .. => 0x5000#16
  | .xwrI .. => 0x5800#16
  | .mrdI .. => 0x6000#16
  | .mwrI .. => 0x6800#16
  | .mroI .. => 0x7000#16
  | .mwoI .. => 0x7800#16
  | .mulI .. => 0x8000#16
  | .cmpI .. => 0x8800#16
  | .divI .. => 0x9000#16
  | .tstI .. => 0x9800#16
  | .movI .. => 0xA000#16
  | .pop .. => 0xA800#16
  | .psh .. => 0xA900#16
  | .calR .. => 0xAA00#16
  | .jmpR .. => 0xAB00#16
  | .ret .. => 0xAC00#16
  | .invLAD .. => 0xAD00#16
  | .invLAE .. => 0xAE00#16
  | .nop .. => 0xAF00#16
  | .mcu .. => 0xB000#16
  | .mcs .. => 0xB800#16
  | .addI .. => 0xC000#16
  | .subI .. => 0xC800#16
  | .notI .. => 0xD000#16
  | .andI .. => 0xD800#16
  | .orrI .. => 0xE000#16
  | .xorI .. => 0xE800#16
  | .shlI .. => 0xF000#16
  | .shrI .. => 0xF800#16

end Sys2Proof
end

