-- ==== Sys2Proof/Config.lean ====
section
/-! DEFINITION. What an implementation of the ISA fixes (00_scope.md R4), and the free values: values
the spec leaves undefined, drawn from constants with no body. -/

namespace Sys2Proof

/-- The reading of condition codes 010 and 101, parameter LEG_E_SENSE (41_control.md R204,
92_eei_decisions.md D13). -/
inductive LegSense where
  /-- As D0 prints it: 010 means Z = 0, 101 means Z = 1. The spec's default. -/
  | literal
  /-- By the structure of the other six codes: 010 means Z = 1, 101 means Z = 0. -/
  | structural
deriving DecidableEq, Repr

/-- The constants of one implementation (00_scope.md R4). They stand in State, where no step changes
them, so that a statement about every state speaks of every implementation (log 5). -/
structure Config where
  /-- CF_VALUE: which extensions exist (10_state.md R33). -/
  cf : Word
  /-- PX3_VALUE: the CPU feature flag register (10_state.md R54). -/
  px3 : Word
  /-- MEM_KIW: physical memory in units of 1024 words, read as PX[2] (10_state.md R53). -/
  memKiw : Word
  /-- LEG_E_SENSE (41_control.md R204). -/
  legSense : LegSense
deriving DecidableEq, Repr

/-- What the ISA guarantees of the constants: at least 64 kiW of memory (10_state.md R53), and CF bits
14:9 and 7:4 read 0 (10_state.md R33). -/
def Config.wf (c : Config) : Bool :=
  decide (64 ≤ c.memKiw.toNat) && c.cf &&& 0x7EF0#16 == 0

/-- The implementation the reset state is given: that of 95_test_vectors.md, with extensions M, D, C, B
and 64 kiW. DESIGN CHOICE, unsafe where a claim rests on the reset state's constants (log 5). -/
def Config.standard : Config := ⟨0x010B#16, 0, 64, .literal⟩

/-- The n-th free bit, `undef1` of 00_scope.md R8. No body: a claim holds for every sequence of bits
(log 6). -/
opaque Config.freeBit : Nat → Bool

/-- The n-th free word, `undef16` of 00_scope.md R8. No body (log 6). -/
opaque Config.freeWord : Nat → Word

end Sys2Proof
end

