-- ==== Sys2Proof/Machine/State.lean ====
section
/-! DEFINITION. The state of the machine (10_state.md), plain data, and the state after reset (R75, R370). -/

namespace Sys2Proof.Machine

/-- The privilege level (10_state.md R60): 1 is supervisor, 0 is user. -/
inductive Priv where
  | user | supervisor
deriving DecidableEq, Repr

/-- Whether the processor runs, waits for an interrupt after HLT, or has stopped for good after HCF
(10_state.md R67). -/
inductive Run where
  | running | halted | dead
deriving DecidableEq, Repr

/-- The four flags of FL (10_state.md R41). Bits 15:4 of FL do not exist. -/
structure Flags where
  /-- Sign, bit 3. -/
  s : Bool
  /-- Signed overflow, bit 2. -/
  o : Bool
  /-- Carry or borrow, bit 1. -/
  c : Bool
  /-- Zero, bit 0. -/
  z : Bool
deriving DecidableEq, Repr

/-- The action a device asks for (60_exceptions.md R335). -/
inductive IoAction where
  | readFromPort | writeToPort
deriving DecidableEq, Repr

/-- A request of a device: its port and the action it needs (60_exceptions.md R335, R340). -/
structure IoRequest where
  port : Word
  action : IoAction
deriving DecidableEq, Repr

/-- What can arrive from outside between two instructions (60_exceptions.md R340-R342). -/
inductive ExtEvent where
  | timerTick
  | ioRequest (q : IoRequest)
deriving DecidableEq, Repr

/-- One access to the port space, as the environment sees it (20_memory.md R121). -/
inductive PortEvent where
  | read (port value : Word)
  | write (port value : Word)
deriving DecidableEq, Repr

/-- Physical memory: bytes by byte address, two to a word, the word at `pa` in the cells `2 * pa` (bits 7:0)
and `2 * pa + 1` (bits 15:8); a representation only, since no program can see a byte (20_memory.md R85;
log 1). -/
abbrev Memory := List Host.Cell

/-- The whole machine. -/
structure State where
  /-- R0..R7 (10_state.md R20). -/
  regs : Vector Word 8
  /-- IP: while an instruction executes, the address of the next one (10_state.md R30). -/
  ip : Word
  /-- LR (10_state.md R38). -/
  lr : Word
  /-- SP (10_state.md R39). -/
  sp : Word
  /-- OF (10_state.md R40). -/
  ofs : Word
  /-- FL (10_state.md R41). -/
  fl : Flags
  /-- F1 (10_state.md R44). -/
  f1 : Word
  /-- F2 (10_state.md R45). -/
  f2 : Word
  /-- UI, the 8 bits that can be observed (10_state.md R34). -/
  ui : BitVec 8
  /-- Whether the previous instruction wrote UI (10_state.md R35). -/
  uiValid : Bool
  /-- PX[0], `cur_pid` (10_state.md R51, R64). -/
  pid : Word
  /-- Whether PXR 0 reads `pid`: false after a PXW to PX[0] until the next PID reload (40_system.md R185). -/
  pidKnown : Bool
  /-- PX[1], the page table address last written (10_state.md R52). -/
  ptAddr : Word
  /-- PX[10], interrupt id (10_state.md R55). -/
  pxId : Word
  /-- PX[11], saved IP (10_state.md R55). -/
  pxIp : Word
  /-- PX[12] (10_state.md R55). -/
  pxInfo0 : Word
  /-- PX[13] (10_state.md R55). -/
  pxInfo1 : Word
  /-- PX[14] (10_state.md R55). -/
  pxInfo2 : Word
  /-- The privilege level (10_state.md R60). -/
  priv : Priv
  /-- Whether external interrupts may be taken (10_state.md R61). -/
  intEnable : Bool
  /-- Whether addresses are translated (10_state.md R62). -/
  paging : Bool
  /-- `pt_base`, the table address latched at the last flush (20_memory.md R105). -/
  ptBase : Word
  /-- `pt_cache` (10_state.md R63). -/
  ptCache : Vector Word 32
  /-- Whether `pt_cache` is specified (20_memory.md R109, 93_implementation_defined.md U14). -/
  ptKnown : Bool
  /-- `iht[0..255]` (10_state.md R65). -/
  iht : Vector Word 256
  /-- `saved_ui`, its 8 bits (10_state.md R66). -/
  savedUi : BitVec 8
  /-- `saved_ui`, its valid bit (10_state.md R66). -/
  savedUiValid : Bool
  /-- `saved_priv` (10_state.md R66). -/
  savedPriv : Priv
  /-- `run` (10_state.md R67). -/
  run : Run
  /-- A timer request waits (60_exceptions.md R340). -/
  pendingTimer : Bool
  /-- The I/O requests that wait, oldest first (60_exceptions.md R340). -/
  pendingIo : List IoRequest
  /-- The environment's schedule: the head holds what arrives before the next step (92_eei_decisions.md D29;
  log 9). -/
  arrivals : List (List ExtEvent)
  /-- The words the devices will answer to the coming port reads, in order (20_memory.md R121; log 11). -/
  portInputs : List Word
  /-- The port accesses made so far, oldest first (20_memory.md R121; log 11). -/
  portTrace : List PortEvent
  /-- Physical memory (10_state.md R70). -/
  mem : Memory
  /-- For a word stored to while F2.P = 0, by physical word address, the older words that a fetch may still
  see, the newest first (20_memory.md R116; log 23). -/
  stale : List (Nat × List Word)
  /-- How many free values have been drawn: the model's own field (log 6). -/
  draws : Nat
  /-- The constants of this implementation: CF, PX[2], PX[3], LEG_E_SENSE (00_scope.md R4; log 5). -/
  cfg : Config
deriving DecidableEq, Repr

/-- Why the machine stops. -/
inductive Fault where
  /-- An internal interrupt raised while interrupts are disabled (60_exceptions.md R322, U18). Raised by
  `raise`. Safe: the spec says the model stops, since no behaviour is defined (log 12). -/
  | doubleFault
deriving DecidableEq, Repr

/-- Why an instruction, or an access, has no meaning. -/
inductive Refusal where
  /-- An instruction the model does not hold yet. Raised by `exec` alone. Safe. -/
  | notModelled (mnemonic : String)
  /-- A must-be-zero bit of MCU, MCS or RET is 1 (30_encoding.md R166, U1). Raised by `step` after
  decoding. Safe (log 13). -/
  | reservedEncoding (word : Word)
  /-- A programmable instruction where CF.P = 1 (40_system.md R187, U2). Raised by `execProg`. Safe (log 14). -/
  | programmableUndefined (slot : BitVec 4)
  /-- PXR or PXW of a reserved register (10_state.md R57, U8). Raised by `execPxr`, `execPxw`. Safe (log 15). -/
  | reservedPx (n : BitVec 5)
  /-- A write to PX[31] with a bit of 15:6 set (10_state.md R56, U9). Raised by `updateState`. Safe (log 16). -/
  | reservedUpdateBits (v : Word)
  /-- An access through a present entry whose frame lies beyond memory (20_memory.md R98, U12). Raised by
  `translate`. Safe (log 19). -/
  | frameBeyondMemory (frame : Nat)
  /-- Flush PT with the table not wholly in frame 0 (20_memory.md R105, U13). Raised by `updateState`.
  Safe (log 20). -/
  | tableOutsideFrame0 (base : Word)
  /-- A translated access while `pt_cache` is unspecified (20_memory.md R109, U14). Raised by `translate`.
  Safe (log 21). -/
  | tableUnspecified
deriving DecidableEq, Repr

/-- What a step or a meaning answers. -/
abbrev Result := Host.Outcome State Fault Refusal

/-- The machine right after reset (10_state.md R75, 70_reset_and_hazards.md R370). The spec gives IP,
`priv`, `paging`, UI, `ui_valid` and `run`; every other value is the model's, DESIGN CHOICE (log 3, 4, 5, 6,
9, 11). -/
def State.reset : State where
  regs := Vector.replicate 8 0
  ip := 0
  lr := 0
  sp := 0
  ofs := 0
  fl := ⟨false, false, false, false⟩
  f1 := 0
  f2 := 0
  ui := 0
  uiValid := false
  pid := 0
  pidKnown := true
  ptAddr := 0
  pxId := 0
  pxIp := 0
  pxInfo0 := 0
  pxInfo1 := 0
  pxInfo2 := 0
  priv := .supervisor
  intEnable := true
  paging := false
  ptBase := 0
  ptCache := Vector.replicate 32 0
  ptKnown := false
  iht := Vector.replicate 256 0
  savedUi := 0
  savedUiValid := false
  savedPriv := .user
  run := .running
  pendingTimer := false
  pendingIo := []
  arrivals := []
  portInputs := []
  portTrace := []
  mem := []
  stale := []
  draws := 0
  cfg := Config.standard

end Sys2Proof.Machine
end

