-- ==== Sys2Proof/Machine/Memory.lean ====
section
/-! DEFINITION. Physical memory (20_memory.md R80-R90): reading and writing words, the canonical form, and the
record of older words a fetch may see (R116). Both are lists of cells kept by address. -/

namespace Sys2Proof.Machine

/-! ## Cells by address -/

/-- The value listed at an address. -/
def cellGet {α : Type} : List (Nat × α) → Nat → Option α
  | [], _ => none
  | (k, v) :: t, a => if k = a then some v else cellGet t a

/-- The list with `v` at an address, in its place in the rising order. -/
def cellPut {α : Type} : List (Nat × α) → Nat → α → List (Nat × α)
  | [], a, v => [(a, v)]
  | (k, w) :: t, a, v =>
    if a < k then (a, v) :: (k, w) :: t
    else if a = k then (a, v) :: t
    else (k, w) :: cellPut t a v

/-- The list with nothing at an address. -/
def cellDel {α : Type} : List (Nat × α) → Nat → List (Nat × α)
  | [], _ => []
  | (k, w) :: t, a => if k = a then cellDel t a else (k, w) :: cellDel t a

/-- Addresses strictly rising. -/
abbrev cellsSorted {α : Type} (l : List (Nat × α)) : Prop := l.Pairwise (fun x y => x.1 < y.1)

/-! ## Physical memory -/

/-- What a byte reads as that nothing has written. DESIGN CHOICE, unsafe: the spec leaves memory outside the
loaded program unspecified (10_state.md R75; log 2). -/
def unlistedByte : BitVec 8 := 0

/-- One byte of physical memory. -/
def readByte (m : Memory) (a : Nat) : BitVec 8 := (cellGet m a).getD unlistedByte

/-- Memory with one byte written, in canonical form: writing what an unlisted address reads as removes the
entry. -/
def writeByte (m : Memory) (a : Nat) (v : BitVec 8) : Memory :=
  if v = unlistedByte then cellDel m a else cellPut m a v

/-- The word at a physical word address, PhysRead of 00_scope.md R8. -/
def readWord (m : Memory) (pa : Nat) : Word := readByte m (2 * pa + 1) ++ readByte m (2 * pa)

/-- Memory with the word at a physical word address written, PhysWrite of 00_scope.md R8. -/
def writeWord (m : Memory) (pa : Nat) (v : Word) : Memory :=
  writeByte (writeByte m (2 * pa) (v.extractLsb' 0 8)) (2 * pa + 1) (v.extractLsb' 8 8)

/-- Memory with a list of words written from a physical word address on. -/
def writeWords : Memory → Nat → List Word → Memory
  | m, _, [] => m
  | m, pa, w :: ws => writeWords (writeWord m pa w) (pa + 1) ws

/-- The canonical form: addresses strictly rising, no entry equal to what an unlisted address reads as. -/
abbrev Memory.wf (m : Memory) : Prop := cellsSorted m ∧ ∀ x ∈ m, x.2 ≠ unlistedByte

/-- Every listed byte lies in the `memKiw * 1024` words of physical memory (10_state.md R70). -/
abbrev Memory.inside (m : Memory) (memKiw : Nat) : Prop := ∀ x ∈ m, x.1 < 2 * (memKiw * 1024)

/-! ## Stores and fetches of stored words (20_memory.md R116) -/

/-- F2.P, self-modifying-code protection (10_state.md R45). -/
def State.codeProtected (s : State) : Bool := s.f2.getLsbD 0

/-- The older words that a fetch of a word may still see. -/
def State.olderWords (s : State) (pa : Nat) : List Word := (cellGet s.stale pa).getD []

/-- A word joins the older words of its address, once. -/
def addOlder (w : Word) (olds : List Word) : List Word := if w ∈ olds then olds else w :: olds

/-- The record of older words after a store to `pa`. With F2.P = 1 every later fetch sees the store. With
F2.P = 0 the word as it stood before the store joins the words that fetches may still see, beside those of
earlier stores (20_memory.md R116; log 23). -/
def noteStore (s : State) (pa : Nat) : List (Nat × List Word) :=
  if s.codeProtected then cellDel s.stale pa
  else cellPut s.stale pa (addOlder (readWord s.mem pa) (s.olderWords pa))

/-- The store of a word at a physical word address. -/
def State.store (s : State) (pa : Nat) (v : Word) : State :=
  { s with mem := writeWord s.mem pa v, stale := noteStore s pa }

/-- The word a fetch at a physical word address returns, and the state after it. With F2.P = 1 it is the word
in memory. With F2.P = 0 any of the recorded older words may be returned instead, as a free value decides,
anew at every fetch (20_memory.md R116, D38; log 23). -/
def State.fetchAt (s : State) (pa : Nat) : Word × State :=
  if s.codeProtected then (readWord s.mem pa, { s with stale := cellDel s.stale pa })
  else match cellGet s.stale pa with
    | none => (readWord s.mem pa, s)
    | some olds =>
      (olds.getD (Config.freeWord s.draws).toNat (readWord s.mem pa), { s with draws := s.draws + 1 })

end Sys2Proof.Machine
end

