-- ==== Sys2Proof/Machine/Ops.lean ====
section
/-! DEFINITION. The operations every meaning is written over: registers, the end of an instruction, taking an
interrupt and returning from one (60_exceptions.md R320, R321), the checks before an instruction (R310),
translation and data access (20_memory.md R100-R110), the state-update actions of PX[31] (40_system.md
R186). -/

namespace Sys2Proof.Machine

/-! ## Registers -/

/-- R[n] (10_state.md R20). -/
def State.reg (s : State) (n : RegNum) : Word := s.regs[n.toNat]

/-- R[n] <- v (10_state.md R20). -/
def State.setReg (s : State) (n : RegNum) (v : Word) : State := { s with regs := s.regs.set n.toNat v }

/-- FL <- f. -/
def State.setFl (s : State) (f : Flags) : State := { s with fl := f }

/-- IP <- v. -/
def State.setIp (s : State) (v : Word) : State := { s with ip := v }

/-- SP <- v. -/
def State.setSp (s : State) (v : Word) : State := { s with sp := v }

/-- The state after `n` free values have been drawn (log 6). -/
def State.drawn (s : State) (n : Nat) : State := { s with draws := s.draws + n }

/-- UI <- 0, `ui_valid` <- 0: what every instruction does at its end that is no write to UI and no IRT
(10_state.md R36, 60_exceptions.md R310 step 6). -/
def State.clearUi (s : State) : State := { s with ui := 0, uiValid := false }

/-- The end of an instruction that completes (60_exceptions.md R310 step 6). -/
def finish (s : State) : Result := .next s.clearUi

/-! ## Taking an interrupt and returning from one -/

/-- What an interrupt records: its id and the words for PX[11..14] (60_exceptions.md R301, R320). -/
structure IntRecord where
  id : BitVec 8
  ip : Word
  info0 : Word
  info1 : Word
  info2 : Word
deriving DecidableEq, Repr

/-- Enter: what taking an interrupt does to the state (60_exceptions.md R320, 10_state.md R37). -/
def State.enter (s : State) (r : IntRecord) : State :=
  { s with
    savedPriv := s.priv
    savedUi := s.ui
    savedUiValid := s.uiValid
    ui := 0
    uiValid := false
    intEnable := false
    pxId := r.id.setWidth 16
    pxIp := r.ip
    pxInfo0 := r.info0
    pxInfo1 := r.info1
    pxInfo2 := r.info2
    priv := .supervisor
    run := .running
    ip := s.iht[r.id.toNat] }

/-- An internal interrupt: entered when interrupts are enabled; with interrupts disabled the model stops with
`doubleFault` (60_exceptions.md R320, R322; log 12). -/
def raise (r : IntRecord) (s : State) : Result :=
  if s.intEnable then .next (s.enter r) else .fault .doubleFault

/-- What IRT does: privilege level, UI and IP come back, interrupts are enabled (40_system.md R181). -/
def State.leave (s : State) : State :=
  { s with priv := s.savedPriv, ui := s.savedUi, uiValid := s.savedUiValid, ip := s.pxIp, intEnable := true }

/-- The ids of the interrupts hardware raises (60_exceptions.md R301). -/
def idTimer : BitVec 8 := 0
@[inherit_doc idTimer] def idPageFault : BitVec 8 := 1
@[inherit_doc idTimer] def idPrivilege : BitVec 8 := 2
@[inherit_doc idTimer] def idPermission : BitVec 8 := 3
@[inherit_doc idTimer] def idDivZero : BitVec 8 := 4
@[inherit_doc idTimer] def idIo : BitVec 8 := 5
@[inherit_doc idTimer] def idUnsupported : BitVec 8 := 6

/-- Interrupt 6, instruction not supported, for the instruction word `w`: the prefix is cleared first, PX[11]
is the next address (60_exceptions.md R310 step 3, R336). -/
def unsupported (w : Word) (s : State) : Result := raise ⟨idUnsupported, s.ip, w, 0, 0⟩ s.clearUi

/-- Interrupt 2, privilege violation, for the instruction word `w` (60_exceptions.md R310 step 4, R332). -/
def privilegeViolation (w : Word) (s : State) : Result := raise ⟨idPrivilege, s.ip, w, 1, 0⟩ s.clearUi

/-! ## Checks before an instruction -/

/-- The extensions an instruction can need, each a bit of CF (10_state.md R33). -/
inductive Extension where
  | mul | div | condMove | prog
deriving DecidableEq, Repr

/-- Whether CF announces an extension: M bit 0, D bit 1, C bit 3, P bit 15 (10_state.md R33). -/
def State.hasExt (s : State) : Extension → Bool
  | .mul => s.cfg.cf.getLsbD 0
  | .div => s.cfg.cf.getLsbD 1
  | .condMove => s.cfg.cf.getLsbD 3
  | .prog => s.cfg.cf.getLsbD 15

/-- An instruction of an extension: interrupt 6 where CF lacks it (60_exceptions.md R310 step 3, R336). -/
def needsExt (e : Extension) (w : Word) (s : State) (body : Result) : Result :=
  if s.hasExt e then body else unsupported w s

/-- A privileged instruction: interrupt 2 at user level (60_exceptions.md R310 step 4, R332). -/
def privileged (w : Word) (s : State) (body : Result) : Result :=
  match s.priv with
  | .supervisor => body
  | .user => privilegeViolation w s

/-! ## Translation (20_memory.md R95-R110) -/

/-- The three kinds of access (20_memory.md R100). -/
inductive AccessKind where
  | read | write | execute
deriving DecidableEq, Repr

/-- The type of violation recorded in PX[13] (60_exceptions.md R333). -/
def AccessKind.code : AccessKind → Word
  | .read => 0
  | .write => 1
  | .execute => 2

/-- Bit 15 of an entry: present (20_memory.md R97). -/
def ptePresent (e : Word) : Bool := e.getLsbD 15

/-- Bits 14, 13, 12 of an entry: read, write, execute at user level (20_memory.md R97). -/
def ptePermits (e : Word) : AccessKind → Bool
  | .read => e.getLsbD 14
  | .write => e.getLsbD 13
  | .execute => e.getLsbD 12

/-- Bits 11:0 of an entry: the frame number (20_memory.md R97). -/
def pteFrame (e : Word) : BitVec 12 := e.extractLsb' 0 12

/-- The page of a virtual address, bits 15:11 (20_memory.md R96). -/
def pageOf (va : Word) : BitVec 5 := va.extractLsb' 11 5

/-- The physical address in a frame: `frame ++ va[10:0]`, 23 bits (20_memory.md R96). -/
def physAddr (frame : BitVec 12) (va : Word) : BitVec 23 := frame ++ va.extractLsb' 0 11

/-- The entry translation uses for a page, and the state after it: a cached entry that is not present is read
again and cached; a cached present entry that differs from memory may be used or not, as a free bit decides
at each access (20_memory.md R107; log 22). -/
def State.effectivePte (s : State) (p : BitVec 5) : Word × State :=
  let cached := s.ptCache[p.toNat]
  let inMem := readWord s.mem (s.ptBase.toNat + p.toNat)
  if ptePresent cached = false then (inMem, { s with ptCache := s.ptCache.set p.toNat inMem })
  else if cached = inMem then (cached, s)
  else (if Config.freeBit s.draws then cached else inMem, s.drawn 1)

/-- What a translation finds. -/
inductive Xlat where
  /-- The physical word address. -/
  | ok (pa : Nat)
  /-- The entry is not present: interrupt 1 (20_memory.md R101). -/
  | pageFault
  /-- The entry forbids the access at user level: interrupt 3 (20_memory.md R102). -/
  | violation
  /-- The spec gives the access no effect (20_memory.md R98, R109). -/
  | refused (r : Refusal)
deriving DecidableEq, Repr

/-- What translation makes of an entry: presence, then permission at user level, then the frame
(20_memory.md R100). -/
def checkPte (priv : Priv) (memKiw : Word) (e : Word) (va : Word) (kind : AccessKind) : Xlat :=
  if ptePresent e = false then .pageFault
  else if priv = .user ∧ ptePermits e kind = false then .violation
  else if memKiw.toNat / 2 ≤ (pteFrame e).toNat then .refused (.frameBeyondMemory (pteFrame e).toNat)
  else .ok (physAddr (pteFrame e) va).toNat

/-- Translate: a virtual address to a physical one, for a kind of access, and the state after it
(20_memory.md R100, R103). -/
def State.translate (s : State) (va : Word) (kind : AccessKind) : Xlat × State :=
  if s.paging = false then (.ok va.toNat, s)
  else if s.ptKnown = false then (.refused .tableUnspecified, s)
  else (checkPte s.priv s.cfg.memKiw (s.effectivePte (pageOf va)).1 va kind, (s.effectivePte (pageOf va)).2)

/-- A data access: `body` is what the instruction does with the physical address. A page fault or a
permission violation is raised with the prefix cleared and nothing else of the instruction done.
`prefixed`: the access uses an immediate that the preceding `xwr UI` extended, and a page fault then records
the address of that XWR (60_exceptions.md R310 step 5, R331, R333). While an instruction executes `s.ip` is
the next address, so the instruction stands at `s.ip - 1`. -/
def dataAccess (prefixed : Bool) (va : Word) (kind : AccessKind) (s : State) (body : Nat → State → Result) :
    Result :=
  match s.translate va kind with
  | (.ok pa, s1) => body pa s1
  | (.pageFault, s1) =>
    raise ⟨idPageFault, if prefixed then s.ip - 2 else s.ip - 1, va, 0, 0⟩ s1.clearUi
  | (.violation, s1) => raise ⟨idPermission, s.ip, va, kind.code, 0⟩ s1.clearUi
  | (.refused r, _) => .refused r

/-! ## Ports (20_memory.md R120-R122) -/

/-- PortRead: the next word the environment answers, or a free value when its list is used up; the access is
recorded (20_memory.md R121; log 11). -/
def State.portRead (s : State) (port : Word) : Word × State :=
  match s.portInputs with
  | v :: rest => (v, { s with portInputs := rest, portTrace := s.portTrace ++ [.read port v] })
  | [] =>
    (Config.freeWord s.draws,
      { s with draws := s.draws + 1, portTrace := s.portTrace ++ [.read port (Config.freeWord s.draws)] })

/-- PortWrite: an output event (20_memory.md R121). -/
def State.portWrite (s : State) (port v : Word) : State :=
  { s with portTrace := s.portTrace ++ [.write port v] }

/-! ## The actions of a write to PX[31] (40_system.md R186) -/

/-- Bit 1: the interrupt handler table is read from physical 0x0100..0x01FF (60_exceptions.md R304). -/
def State.reloadIht (s : State) : State :=
  { s with iht := Vector.ofFn (fun n : Fin 256 => readWord s.mem (0x0100 + n.val)) }

/-- Bit 0: the PID is read from physical 0x00FF and paging is on. `pt_cache` is unspecified until the next
flush (20_memory.md R104, R109). -/
def State.reloadPid (s : State) : State :=
  { s with pid := readWord s.mem 0x00FF, pidKnown := true, paging := true, ptKnown := false }

/-- Bit 3: `pt_base` is latched from PX[1], the table is read, and paging is on (20_memory.md R104, R108). -/
def State.flushPt (s : State) : State :=
  { s with
    ptBase := s.ptAddr
    ptCache := Vector.ofFn (fun p : Fin 32 => readWord s.mem (s.ptAddr.toNat + p.val))
    ptKnown := true
    paging := true }

/-- Bits 4 and 5: interrupts on or off, off taking priority (60_exceptions.md R306). -/
def State.setIntEnable (s : State) (v : Word) : State :=
  { s with intEnable := if v.getLsbD 5 then false else if v.getLsbD 4 then true else s.intEnable }

/-- Bit 2: the privilege level is lowered (60_exceptions.md R346). -/
def State.lowerPriv (s : State) : State := { s with priv := .user }

/-- An action done if a bit of the written value is 1. -/
def State.actIf (s : State) (b : Bool) (f : State → State) : State := if b then f s else s

/-- All the actions of a write of `v` to PX[31], in the order of 40_system.md R186. -/
def State.updateActions (s : State) (v : Word) : State :=
  ((((s.actIf (v.getLsbD 1) State.reloadIht).actIf (v.getLsbD 0) State.reloadPid).actIf
    (v.getLsbD 3) State.flushPt).setIntEnable v).actIf (v.getLsbD 2) State.lowerPriv

/-- A write of `v` to PX[31] (40_system.md R186). Bits 15:6 have no meaning (U9), and a table that is to be
read must lie in frame 0 (20_memory.md R105, U13). -/
def updateState (v : Word) (s : State) : Result :=
  if v.extractLsb' 6 10 ≠ 0 then .refused (.reservedUpdateBits v)
  else if v.getLsbD 3 ∧ 0x07FF < s.ptAddr.toNat + 31 then .refused (.tableOutsideFrame0 s.ptAddr)
  else finish (s.updateActions v)

end Sys2Proof.Machine
end

