-- ==== Sys2Proof/Machine/Flags.lean ====
section
/-! DEFINITION. FL as a word, the flag computations (45_alu_logic_shift.md R280, 44_arith_move.md, preamble),
and the condition table (41_control.md R204). -/

namespace Sys2Proof.Machine

/-- FL as read: `000000000000 ++ S ++ O ++ C ++ Z` (42_port_extreg.md R224). -/
def Flags.toWord (f : Flags) : Word :=
  0#12 ++ BitVec.ofBool f.s ++ BitVec.ofBool f.o ++ BitVec.ofBool f.c ++ BitVec.ofBool f.z

/-- The flags of four bits in FL order (41_control.md R207). -/
def Flags.ofBits (b : BitVec 4) : Flags := ⟨b.getLsbD 3, b.getLsbD 2, b.getLsbD 1, b.getLsbD 0⟩

/-- FL as written: bits 3:0 are kept, the rest dropped (42_port_extreg.md R225, D5). -/
def Flags.ofWord (v : Word) : Flags := Flags.ofBits (v.extractLsb' 0 4)

/-- AddC: the sum with carry in, and its flags (45_alu_logic_shift.md R280). -/
def addC (a b : Word) (cin : Bool) : Word × Flags :=
  let u : Nat := a.toNat + b.toNat + cin.toNat
  let t : Int := a.toInt + b.toInt + cin.toNat
  let r := BitVec.ofNat 16 u
  (r, ⟨r.msb, decide (t < -32768 ∨ 32767 < t), decide (2 ^ 16 ≤ u), r == 0⟩)

/-- SubB: the difference with borrow in, and its flags; C = 1 is a borrow (45_alu_logic_shift.md R280). -/
def subB (a b : Word) (bin : Bool) : Word × Flags :=
  let u : Int := (a.toNat : Int) - b.toNat - bin.toNat
  let t : Int := a.toInt - b.toInt - bin.toNat
  let r := BitVec.ofInt 16 u
  (r, ⟨r.msb, decide (t < -32768 ∨ 32767 < t), decide (u < 0), r == 0⟩)

/-- BigInt: F1.B = 1 and CF.B = 1, bit 8 (45_alu_logic_shift.md R280, D32). -/
def State.bigInt (s : State) : Bool := s.f1.getLsbD 0 && s.cfg.cf.getLsbD 8

/-- F1.S, signed arithmetic (10_state.md R44). -/
def State.signed (s : State) : Bool := s.f1.getLsbD 1

/-- The carry or borrow that ADD, SUB and CMP take in (45_alu_logic_shift.md R281, R282). -/
def State.carryIn (s : State) : Bool := s.bigInt && s.fl.c

/-- SetSZ: S and Z of the result, O and C free bits, the n-th and the one after it (10_state.md R43,
44_arith_move.md preamble; log 7). -/
def szFlags (r : Word) (n : Nat) : Flags := ⟨r.msb, Config.freeBit n, Config.freeBit (n + 1), r == 0⟩

/-- Whether a code of the E column is read as printed or by structure: 010 tests for "not zero" as printed, for
"zero" by structure (41_control.md R204). -/
def condE (sense : LegSense) (z : Bool) : Bool :=
  match sense with
  | .literal => !z
  | .structural => z

/-- The condition table over "less", "zero" and the sense of 010 and 101 (41_control.md R204). -/
def condTable (sense : LegSense) (less z : Bool) : Leg → Bool
  | .l000 => false
  | .l001 => !less && !z
  | .l010 => condE sense z
  | .l011 => !less
  | .l100 => less
  | .l101 => !condE sense z
  | .l110 => less || z
  | .l111 => true

/-- CondU: "less" is C = 1 (41_control.md R204). -/
def condU (sense : LegSense) (f : Flags) (leg : Leg) : Bool := condTable sense f.c f.z leg

/-- CondS: "less" is S /= O (41_control.md R204). -/
def condS (sense : LegSense) (f : Flags) (leg : Leg) : Bool := condTable sense (f.s != f.o) f.z leg

end Sys2Proof.Machine
end

