-- ==== Sys2Proof/Machine/Operands.lean ====
section
/-! DEFINITION. Operands: immediates extended to 16 bits (30_encoding.md R150-R153), the external registers
(42_port_extreg.md R224, R225), the privileged external registers (40_system.md R184, R185). -/

namespace Sys2Proof.Machine

/-! ## Immediates -/

/-- imm16 of short REG_IMM: `UI ++ imm8` (30_encoding.md R150). -/
def State.imm16 (s : State) (imm : BitVec 8) : Word := s.ui ++ imm

/-- The offset of CAL and JMP: sign-extended imm11, or `UI ++ imm11[7:0]` after a write to UI
(30_encoding.md R151, R152). -/
def State.offset11 (s : State) (imm : BitVec 11) : Word :=
  if s.uiValid then s.ui ++ imm.extractLsb' 0 8 else imm.signExtend 16

/-- The offset of JCU and JCS: sign-extended imm8, or `UI ++ imm8` after a write to UI (30_encoding.md R151,
R152). -/
def State.offset8 (s : State) (imm : BitVec 8) : Word :=
  if s.uiValid then s.ui ++ imm else imm.signExtend 16

/-! ## External registers -/

/-- E[n] as a value (42_port_extreg.md R224). -/
def State.readExt (s : State) : ExtReg → Word
  | .ip => s.ip
  | .cfui => s.cfg.cf
  | .lr => s.lr
  | .sp => s.sp
  | .ofs => s.ofs
  | .fl => s.fl.toWord
  | .f1 => s.f1
  | .f2 => s.f2

/-- A feature register written with `v`: its defined bits are the mask `m`. Reserved bits written as they
stand stay; reserved bits that a write would change hold a free value afterwards, the n-th
(42_port_extreg.md R225, U6; log 24). -/
def writeFeature (m old v : Word) (n : Nat) : Word :=
  if v &&& ~~~m = old &&& ~~~m then v else (v &&& m) ||| (Config.freeWord n &&& ~~~m)

/-- How many free values `writeFeature` draws. -/
def featureDraws (m old v : Word) : Nat := if v &&& ~~~m = old &&& ~~~m then 0 else 1

/-- The defined bits of F1: S and B (10_state.md R44). -/
def f1Mask : Word := 0x0003#16

/-- The defined bit of F2: P (10_state.md R45). -/
def f2Mask : Word := 0x0001#16

/-- E[n] <- v, without the end of the instruction (42_port_extreg.md R225). -/
def State.writeExt (s : State) (x : ExtReg) (v : Word) : State :=
  match x with
  | .ip => { s with ip := v }
  | .cfui => { s with ui := v.extractLsb' 0 8, uiValid := true }
  | .lr => { s with lr := v }
  | .sp => { s with sp := v }
  | .ofs => { s with ofs := v }
  | .fl => { s with fl := Flags.ofWord v }
  | .f1 => { s with f1 := writeFeature f1Mask s.f1 v s.draws, draws := s.draws + featureDraws f1Mask s.f1 v }
  | .f2 => { s with f2 := writeFeature f2Mask s.f2 v s.draws, draws := s.draws + featureDraws f2Mask s.f2 v }

/-- XWR: the write, and the end of the instruction, which leaves UI as it is if UI was written
(42_port_extreg.md R225, R227). -/
def extWrite (x : ExtReg) (v : Word) (s : State) : Result :=
  match x with
  | .cfui => .next (s.writeExt .cfui v)
  | x => finish (s.writeExt x v)

/-! ## Privileged external registers -/

/-- The privileged external registers by their role (10_state.md R50). -/
inductive PxReg where
  | pid | ptAddr | memKiw | feature | intId | intIp | info0 | info1 | info2 | update | reserved
deriving DecidableEq, Repr

/-- The register a PX number names (10_state.md R50). -/
def pxReg (n : BitVec 5) : PxReg :=
  match n.toNat with
  | 0 => .pid
  | 1 => .ptAddr
  | 2 => .memKiw
  | 3 => .feature
  | 10 => .intId
  | 11 => .intIp
  | 12 => .info0
  | 13 => .info1
  | 14 => .info2
  | 31 => .update
  | _ => .reserved

/-- PXR: R[d] <- PX[n] (40_system.md R184). A read of PX[31], and a read of PX[0] after a write to it, is a
free value (U9, U10; log 16, 17). -/
def pxRead (rd : RegNum) (n : BitVec 5) (s : State) : Result :=
  match pxReg n with
  | .pid =>
    if s.pidKnown then finish (s.setReg rd s.pid)
    else finish ((s.setReg rd (Config.freeWord s.draws)).drawn 1)
  | .ptAddr => finish (s.setReg rd s.ptAddr)
  | .memKiw => finish (s.setReg rd s.cfg.memKiw)
  | .feature => finish (s.setReg rd s.cfg.px3)
  | .intId => finish (s.setReg rd s.pxId)
  | .intIp => finish (s.setReg rd s.pxIp)
  | .info0 => finish (s.setReg rd s.pxInfo0)
  | .info1 => finish (s.setReg rd s.pxInfo1)
  | .info2 => finish (s.setReg rd s.pxInfo2)
  | .update => finish ((s.setReg rd (Config.freeWord s.draws)).drawn 1)
  | .reserved => .refused (.reservedPx n)

/-- PXW: PX[n] <- v (40_system.md R185). -/
def pxWrite (n : BitVec 5) (v : Word) (s : State) : Result :=
  match pxReg n with
  | .pid => finish { s with pidKnown := false }
  | .ptAddr => finish { s with ptAddr := v }
  | .memKiw => finish s
  | .feature => finish s
  | .intId => finish { s with pxId := v }
  | .intIp => finish { s with pxIp := v }
  | .info0 => finish { s with pxInfo0 := v }
  | .info1 => finish { s with pxInfo1 := v }
  | .info2 => finish { s with pxInfo2 := v }
  | .update => updateState v s
  | .reserved => .refused (.reservedPx n)

end Sys2Proof.Machine
end

