-- ==== Sys2Proof/Machine/ArithMove.lean ====
section
/-! DEFINITION. MUL, CMP, DIV, TST, MOV, MCU, MCS (44_arith_move.md R260-R276). In both forms `b` is the second
operand, a register or the extended immediate. -/

namespace Sys2Proof.Machine

/-- A result in R[d] with S and Z from it and O, C undefined (44_arith_move.md preamble, 10_state.md R43). -/
def resultSz (rd : RegNum) (r : Word) (s : State) : Result :=
  finish (((s.setReg rd r).setFl (szFlags r s.draws)).drawn 2)

/-- S and Z of a result that is not stored, O and C undefined (44_arith_move.md R266). -/
def flagsSz (r : Word) (s : State) : Result := finish ((s.setFl (szFlags r s.draws)).drawn 2)

/-- The quotient where it is defined: floor of the unsigned readings, or the signed quotient rounded toward
zero (44_arith_move.md R264, D9). -/
def quotient (signed : Bool) (a b : Word) : Word :=
  if signed then BitVec.ofInt 16 (a.toInt.tdiv b.toInt) else BitVec.ofNat 16 (a.toNat / b.toNat)

/-- R[d] and all four flags undefined: five free values (44_arith_move.md R264, U4, U5; log 8). -/
def State.undefResult (s : State) (rd : RegNum) : State :=
  ((s.setReg rd (Config.freeWord s.draws)).setFl
    ⟨Config.freeBit (s.draws + 1), Config.freeBit (s.draws + 2), Config.freeBit (s.draws + 3),
      Config.freeBit (s.draws + 4)⟩).drawn 5

/-- DIV (44_arith_move.md R264). By zero: the result is undefined and interrupt 4 follows. -32768 by -1 in
signed mode: the result is undefined and the machine goes on. -/
def divide (rd : RegNum) (b : Word) (s : State) : Result :=
  if b = 0 then raise ⟨idDivZero, s.ip, 0, 0, 0⟩ (s.undefResult rd).clearUi
  else if s.signed = true ∧ s.reg rd = 0x8000#16 ∧ b = 0xFFFF#16 then finish (s.undefResult rd)
  else resultSz rd (quotient s.signed (s.reg rd) b) s

/-- CMP: the flags of the difference alone (44_arith_move.md R262). -/
def compare (rd : RegNum) (b : Word) (s : State) : Result :=
  finish (s.setFl (subB (s.reg rd) b s.carryIn).2)

/-- MOV (44_arith_move.md R268). -/
def move (rd : RegNum) (b : Word) (s : State) : Result := finish (s.setReg rd b)

/-- A move if a condition holds (44_arith_move.md R275, R276). -/
def condMove (cond : Bool) (rd : RegNum) (b : Word) (s : State) : Result :=
  if cond then move rd b s else finish s

/-- MUL, register form: the low 16 bits of the product (44_arith_move.md R260). -/
def execMulR (rd rs : RegNum) (s : State) : Result :=
  needsExt .mul (encode (.mulR rd rs)) s (resultSz rd (s.reg rd * s.reg rs) s)

/-- MUL, immediate form (44_arith_move.md R260). -/
def execMulI (rd : RegNum) (imm : BitVec 8) (s : State) : Result :=
  needsExt .mul (encode (.mulI rd imm)) s (resultSz rd (s.reg rd * s.imm16 imm) s)

/-- CMP, register form (44_arith_move.md R262). -/
def execCmpR (rd rs : RegNum) (s : State) : Result := compare rd (s.reg rs) s

/-- CMP, immediate form (44_arith_move.md R262). -/
def execCmpI (rd : RegNum) (imm : BitVec 8) (s : State) : Result := compare rd (s.imm16 imm) s

/-- DIV, register form (44_arith_move.md R264). -/
def execDivR (rd rs : RegNum) (s : State) : Result :=
  needsExt .div (encode (.divR rd rs)) s (divide rd (s.reg rs) s)

/-- DIV, immediate form (44_arith_move.md R264). -/
def execDivI (rd : RegNum) (imm : BitVec 8) (s : State) : Result :=
  needsExt .div (encode (.divI rd imm)) s (divide rd (s.imm16 imm) s)

/-- TST, register form (44_arith_move.md R266). -/
def execTstR (rd rs : RegNum) (s : State) : Result := flagsSz (s.reg rd &&& s.reg rs) s

/-- TST, immediate form (44_arith_move.md R266). -/
def execTstI (rd : RegNum) (imm : BitVec 8) (s : State) : Result := flagsSz (s.reg rd &&& s.imm16 imm) s

/-- MOV, register form (44_arith_move.md R268). -/
def execMovR (rd rs : RegNum) (s : State) : Result := move rd (s.reg rs) s

/-- MOV, immediate form (44_arith_move.md R268). -/
def execMovI (rd : RegNum) (imm : BitVec 8) (s : State) : Result := move rd (s.imm16 imm) s

/-- MCU (44_arith_move.md R275). -/
def execMcu (leg : Leg) (rd rs : RegNum) (s : State) : Result :=
  needsExt .condMove (encode (.mcu leg rd rs)) s (condMove (condU s.cfg.legSense s.fl leg) rd (s.reg rs) s)

/-- MCS (44_arith_move.md R276). -/
def execMcs (leg : Leg) (rd rs : RegNum) (s : State) : Result :=
  needsExt .condMove (encode (.mcs leg rd rs)) s (condMove (condS s.cfg.legSense s.fl leg) rd (s.reg rs) s)

end Sys2Proof.Machine
end

