-- ==== Sys2Proof/Machine/AluShift.lean ====
section
/-! DEFINITION. ADD, SUB, NOT, AND, ORR, XOR, SHL, SHR (45_alu_logic_shift.md R281-R288). In both forms `b` is
the second operand, a register or the extended immediate. -/

namespace Sys2Proof.Machine

/-- A result and its four flags (45_alu_logic_shift.md R281, R282). -/
def resultFl (rd : RegNum) (x : Word × Flags) (s : State) : Result := finish ((s.setReg rd x.1).setFl x.2)

/-- ADD (45_alu_logic_shift.md R281). -/
def add (rd : RegNum) (b : Word) (s : State) : Result := resultFl rd (addC (s.reg rd) b s.carryIn) s

/-- SUB (45_alu_logic_shift.md R282). -/
def sub (rd : RegNum) (b : Word) (s : State) : Result := resultFl rd (subB (s.reg rd) b s.carryIn) s

/-- SHL: the count is the whole operand read as unsigned; above 15 the result is 0
(45_alu_logic_shift.md R287, D11). -/
def shiftLeft (a b : Word) : Word := if 15 < b.toNat then 0 else a <<< b.toNat

/-- SHR: as SHL; from the left enters 0, or the sign bit with F1.S = 1 (45_alu_logic_shift.md R288, D11). -/
def shiftRight (signed : Bool) (a b : Word) : Word :=
  if signed then
    if 15 < b.toNat then (if a.msb then 0xFFFF#16 else 0) else a.sshiftRight b.toNat
  else if 15 < b.toNat then 0 else a >>> b.toNat

/-- ADD, register form (45_alu_logic_shift.md R281). -/
def execAddR (rd rs : RegNum) (s : State) : Result := add rd (s.reg rs) s

/-- ADD, immediate form (45_alu_logic_shift.md R281). -/
def execAddI (rd : RegNum) (imm : BitVec 8) (s : State) : Result := add rd (s.imm16 imm) s

/-- SUB, register form (45_alu_logic_shift.md R282). -/
def execSubR (rd rs : RegNum) (s : State) : Result := sub rd (s.reg rs) s

/-- SUB, immediate form (45_alu_logic_shift.md R282). -/
def execSubI (rd : RegNum) (imm : BitVec 8) (s : State) : Result := sub rd (s.imm16 imm) s

/-- NOT, register form: the complement of the second operand (45_alu_logic_shift.md R283). -/
def execNotR (rd rs : RegNum) (s : State) : Result := resultSz rd (~~~(s.reg rs)) s

/-- NOT, immediate form: the complement of the second operand (45_alu_logic_shift.md R283). -/
def execNotI (rd : RegNum) (imm : BitVec 8) (s : State) : Result := resultSz rd (~~~(s.imm16 imm)) s

/-- AND, register form (45_alu_logic_shift.md R284). -/
def execAndR (rd rs : RegNum) (s : State) : Result := resultSz rd (s.reg rd &&& s.reg rs) s

/-- AND, immediate form (45_alu_logic_shift.md R284). -/
def execAndI (rd : RegNum) (imm : BitVec 8) (s : State) : Result := resultSz rd (s.reg rd &&& s.imm16 imm) s

/-- ORR, register form (45_alu_logic_shift.md R285). -/
def execOrrR (rd rs : RegNum) (s : State) : Result := resultSz rd (s.reg rd ||| s.reg rs) s

/-- ORR, immediate form (45_alu_logic_shift.md R285). -/
def execOrrI (rd : RegNum) (imm : BitVec 8) (s : State) : Result := resultSz rd (s.reg rd ||| s.imm16 imm) s

/-- XOR, register form (45_alu_logic_shift.md R286). -/
def execXorR (rd rs : RegNum) (s : State) : Result := resultSz rd (s.reg rd ^^^ s.reg rs) s

/-- XOR, immediate form (45_alu_logic_shift.md R286). -/
def execXorI (rd : RegNum) (imm : BitVec 8) (s : State) : Result := resultSz rd (s.reg rd ^^^ s.imm16 imm) s

/-- SHL, register form (45_alu_logic_shift.md R287). -/
def execShlR (rd rs : RegNum) (s : State) : Result := resultSz rd (shiftLeft (s.reg rd) (s.reg rs)) s

/-- SHL, immediate form (45_alu_logic_shift.md R287). -/
def execShlI (rd : RegNum) (imm : BitVec 8) (s : State) : Result := resultSz rd (shiftLeft (s.reg rd) (s.imm16 imm)) s

/-- SHR, register form (45_alu_logic_shift.md R288). -/
def execShrR (rd rs : RegNum) (s : State) : Result := resultSz rd (shiftRight s.signed (s.reg rd) (s.reg rs)) s

/-- SHR, immediate form (45_alu_logic_shift.md R288). -/
def execShrI (rd : RegNum) (imm : BitVec 8) (s : State) : Result := resultSz rd (shiftRight s.signed (s.reg rd) (s.imm16 imm)) s

end Sys2Proof.Machine
end

