-- ==== Sys2Proof/Machine/Control.lean ====
section
/-! DEFINITION. Control transfer: CAL, JMP, JCU, JCS, RET, NOP (41_control.md R200-R208). While they execute,
`s.ip` is the next address. -/

namespace Sys2Proof.Machine

/-- A relative jump: IP <- next + offset (41_control.md R201, R206). -/
def relJump (off : Word) (s : State) : Result := finish (s.setIp (s.ip + off))

/-- A relative call: LR <- next, IP <- next + offset (41_control.md R200, R205). -/
def relCall (off : Word) (s : State) : Result := finish { s with lr := s.ip, ip := s.ip + off }

/-- A relative jump if a condition holds (41_control.md R202, R203). -/
def condJump (cond : Bool) (off : Word) (s : State) : Result := if cond then relJump off s else finish s

/-- CAL imm11 (41_control.md R200). -/
def execCalI (imm : BitVec 11) (s : State) : Result := relCall (s.offset11 imm) s

/-- JMP imm11 (41_control.md R201). -/
def execJmpI (imm : BitVec 11) (s : State) : Result := relJump (s.offset11 imm) s

/-- JCU (41_control.md R202). -/
def execJcu (leg : Leg) (imm : BitVec 8) (s : State) : Result :=
  condJump (condU s.cfg.legSense s.fl leg) (s.offset8 imm) s

/-- JCS (41_control.md R203). -/
def execJcs (leg : Leg) (imm : BitVec 8) (s : State) : Result :=
  condJump (condS s.cfg.legSense s.fl leg) (s.offset8 imm) s

/-- CAL s: relative (41_control.md R205, C2). -/
def execCalR (rs : RegNum) (_ign : BitVec 5) (s : State) : Result := relCall (s.reg rs) s

/-- JMP s: relative (41_control.md R206, C2). -/
def execJmpR (rs : RegNum) (_ign : BitVec 5) (s : State) : Result := relJump (s.reg rs) s

/-- RET: IP <- LR, FL <- SOCZ (41_control.md R207). -/
def execRet (socz : BitVec 4) (s : State) : Result := finish ((s.setFl (Flags.ofBits socz)).setIp s.lr)

/-- NOP (41_control.md R208). -/
def execNop (_ign : BitVec 8) (s : State) : Result := finish s

end Sys2Proof.Machine
end

