-- ==== Sys2Proof/Machine/Invalid.lean ====
section
/-! DEFINITION. The rows of the table that hold no instruction: each raises interrupt 6, instruction not
supported, with the word in PX[12] (30_encoding.md R165, 60_exceptions.md R336). -/

namespace Sys2Proof.Machine

/-- REG_REG operation 00000: invalid (R161, R165). -/
def execInvRR00 (rd : RegNum) (rs : RegNum) (s : State) : Result := unsupported (encode (.invRR00 rd rs)) s

/-- REG_REG operation 00001: invalid (R161, R165). -/
def execInvRR01 (rd : RegNum) (rs : RegNum) (s : State) : Result := unsupported (encode (.invRR01 rd rs)) s

/-- REG_REG operation 00010: invalid (R161, R165). -/
def execInvRR02 (rd : RegNum) (rs : RegNum) (s : State) : Result := unsupported (encode (.invRR02 rd rs)) s

/-- REG_REG operation 00011: invalid (R161, R165). -/
def execInvRR03 (rd : RegNum) (rs : RegNum) (s : State) : Result := unsupported (encode (.invRR03 rd rs)) s

/-- REG_REG operation 00100: invalid (R161, R165). -/
def execInvRR04 (rd : RegNum) (rs : RegNum) (s : State) : Result := unsupported (encode (.invRR04 rd rs)) s

/-- REG_REG operation 00101: invalid (R161, R165). -/
def execInvRR05 (rd : RegNum) (rs : RegNum) (s : State) : Result := unsupported (encode (.invRR05 rd rs)) s

/-- REG_REG operation 00110: invalid (R161, R165). -/
def execInvRR06 (rd : RegNum) (rs : RegNum) (s : State) : Result := unsupported (encode (.invRR06 rd rs)) s

/-- REG_REG operation 00111: invalid (R161, R165). -/
def execInvRR07 (rd : RegNum) (rs : RegNum) (s : State) : Result := unsupported (encode (.invRR07 rd rs)) s

/-- REG_REG operation 10101: invalid (R161, R165). -/
def execInvRR15 (rd : RegNum) (rs : RegNum) (s : State) : Result := unsupported (encode (.invRR15 rd rs)) s

/-- REG_REG operation 10110: invalid (R161, R165). -/
def execInvRR16 (rd : RegNum) (rs : RegNum) (s : State) : Result := unsupported (encode (.invRR16 rd rs)) s

/-- REG_REG operation 10111: invalid (R161, R165). -/
def execInvRR17 (rd : RegNum) (rs : RegNum) (s : State) : Result := unsupported (encode (.invRR17 rd rs)) s

/-- Long opcode 00001100: invalid (R162, R165). -/
def execInvL0C (ign : BitVec 8) (s : State) : Result := unsupported (encode (.invL0C ign)) s

/-- Long opcode 00001101: invalid (R162, R165). -/
def execInvL0D (ign : BitVec 8) (s : State) : Result := unsupported (encode (.invL0D ign)) s

/-- Short opcode 01010: invalid, XRD has no immediate form (R160, R165). -/
def execInvS0A (ign : BitVec 11) (s : State) : Result := unsupported (encode (.invS0A ign)) s

/-- Long opcode 10101101: invalid (R163, R165). -/
def execInvLAD (ign : BitVec 8) (s : State) : Result := unsupported (encode (.invLAD ign)) s

/-- Long opcode 10101110: invalid (R163, R165). -/
def execInvLAE (ign : BitVec 8) (s : State) : Result := unsupported (encode (.invLAE ign)) s

end Sys2Proof.Machine
end

