-- ==== Sys2Proof/Machine/MemStack.lean ====
section
/-! DEFINITION. Memory and stack: MRD, MWR, MRO, MWO, POP, PSH (43_memory_stack.md R240-R249). An access by an
immediate is `prefixed` when the preceding instruction wrote UI (60_exceptions.md R331). -/

namespace Sys2Proof.Machine

/-- R[d] <- MemRead(va) (43_memory_stack.md R240, R242). -/
def memLoad (rd : RegNum) (prefixed : Bool) (va : Word) (s : State) : Result :=
  dataAccess prefixed va .read s fun pa s1 => finish (s1.setReg rd (readWord s1.mem pa))

/-- MemWrite(va, v) (43_memory_stack.md R241, R243). -/
def memStore (prefixed : Bool) (va v : Word) (s : State) : Result :=
  dataAccess prefixed va .write s fun pa s1 => finish (s1.store pa v)

/-- MRD, register form (43_memory_stack.md R240). -/
def execMrdR (rd rs : RegNum) (s : State) : Result := memLoad rd false (s.reg rs) s

/-- MRD, immediate form (43_memory_stack.md R240). -/
def execMrdI (rd : RegNum) (imm : BitVec 8) (s : State) : Result := memLoad rd s.uiValid (s.imm16 imm) s

/-- MWR, register form: address R[d], data R[s] (43_memory_stack.md R241). -/
def execMwrR (rd rs : RegNum) (s : State) : Result := memStore false (s.reg rd) (s.reg rs) s

/-- MWR, immediate form: address imm16, data R[s] (43_memory_stack.md R241, C4). -/
def execMwrI (imm : BitVec 8) (rs : RegNum) (s : State) : Result :=
  memStore s.uiValid (s.imm16 imm) (s.reg rs) s

/-- MRO, register form (43_memory_stack.md R242). -/
def execMroR (rd rs : RegNum) (s : State) : Result := memLoad rd false (s.ofs + s.reg rs) s

/-- MRO, immediate form (43_memory_stack.md R242). -/
def execMroI (rd : RegNum) (imm : BitVec 8) (s : State) : Result :=
  memLoad rd s.uiValid (s.ofs + s.imm16 imm) s

/-- MWO, register form (43_memory_stack.md R243). -/
def execMwoR (rd rs : RegNum) (s : State) : Result := memStore false (s.ofs + s.reg rd) (s.reg rs) s

/-- MWO, immediate form (43_memory_stack.md R243, C4). -/
def execMwoI (imm : BitVec 8) (rs : RegNum) (s : State) : Result :=
  memStore s.uiValid (s.ofs + s.imm16 imm) (s.reg rs) s

/-- POP: the value first, then SP + 1 (43_memory_stack.md R248). -/
def execPop (rd : RegNum) (_ign : BitVec 5) (s : State) : Result :=
  dataAccess false s.sp .read s fun pa s1 => finish ((s1.setReg rd (readWord s1.mem pa)).setSp (s.sp + 1))

/-- PSH: SP - 1 first, then the value; a faulting PSH leaves SP (43_memory_stack.md R249). -/
def execPsh (rs : RegNum) (_ign : BitVec 5) (s : State) : Result :=
  dataAccess false (s.sp - 1) .write s fun pa s1 => finish ((s1.store pa (s.reg rs)).setSp (s.sp - 1))

end Sys2Proof.Machine
end

