-- ==== Sys2Proof/Machine/PortExt.lean ====
section
/-! DEFINITION. Ports and external registers: PRD, PWR, XRD, XWR (42_port_extreg.md R220-R227). -/

namespace Sys2Proof.Machine

/-- R[d] <- PortRead(port) (42_port_extreg.md R220). -/
def portLoad (rd : RegNum) (port : Word) (s : State) : Result :=
  finish ((s.portRead port).2.setReg rd (s.portRead port).1)

/-- PortWrite(port, v) (42_port_extreg.md R221). -/
def portStore (port v : Word) (s : State) : Result := finish (s.portWrite port v)

/-- PRD, register form (42_port_extreg.md R220). -/
def execPrdR (rd rs : RegNum) (s : State) : Result :=
  privileged (encode (.prdR rd rs)) s (portLoad rd (s.reg rs) s)

/-- PRD, immediate form (42_port_extreg.md R220). -/
def execPrdI (rd : RegNum) (imm : BitVec 8) (s : State) : Result :=
  privileged (encode (.prdI rd imm)) s (portLoad rd (s.imm16 imm) s)

/-- PWR, register form: port R[d], data R[s] (42_port_extreg.md R221, C3). -/
def execPwrR (rd rs : RegNum) (s : State) : Result :=
  privileged (encode (.pwrR rd rs)) s (portStore (s.reg rd) (s.reg rs) s)

/-- PWR, immediate form: port imm16, data R[s] (42_port_extreg.md R221, C3). -/
def execPwrI (imm : BitVec 8) (rs : RegNum) (s : State) : Result :=
  privileged (encode (.pwrI imm rs)) s (portStore (s.imm16 imm) (s.reg rs) s)

/-- XRD: R[d] <- E[x] (42_port_extreg.md R226, C5). -/
def execXrd (rd : RegNum) (x : ExtReg) (s : State) : Result := finish (s.setReg rd (s.readExt x))

/-- XWR, register form: E[x] <- R[s] (42_port_extreg.md R227). -/
def execXwrR (x : ExtReg) (rs : RegNum) (s : State) : Result := extWrite x (s.reg rs) s

/-- XWR, immediate form: E[x] <- imm16 (42_port_extreg.md R227, C18). -/
def execXwrI (x : ExtReg) (imm : BitVec 8) (s : State) : Result := extWrite x (s.imm16 imm) s

end Sys2Proof.Machine
end

