-- ==== Sys2Proof/Machine/System.lean ====
section
/-! DEFINITION. The system instructions and the programmable slots (40_system.md R180-R187). -/

namespace Sys2Proof.Machine

/-- The record of INT with a hardware id, 0 to 63: PX[12..14] are free values, PX[11] is the next address but
for id 1, which records the INT's own (60_exceptions.md R338, U19; log 18). -/
def intHwRecord (id : BitVec 8) (s : State) : IntRecord :=
  ⟨id, if id = idPageFault then s.ip - 1 else s.ip, Config.freeWord s.draws, Config.freeWord (s.draws + 1),
    Config.freeWord (s.draws + 2)⟩

/-- The record of INT with a software id, 64 to 255: R0, R1, R2 (60_exceptions.md R337). -/
def intSwRecord (id : BitVec 8) (s : State) : IntRecord := ⟨id, s.ip, s.reg 0, s.reg 1, s.reg 2⟩

/-- INT: ids below 64 are privileged (40_system.md R180). -/
def execInt (imm : BitVec 8) (s : State) : Result :=
  if imm.toNat < 64 then
    privileged (encode (.int imm)) s (raise (intHwRecord imm s) (s.drawn 3).clearUi)
  else raise (intSwRecord imm s) s.clearUi

/-- IRT: the prefix it restores is not cleared (40_system.md R181). -/
def execIrt (ign : BitVec 8) (s : State) : Result :=
  privileged (encode (.irt ign)) s (.next s.leave)

/-- HLT: interrupts on, then wait (40_system.md R182). -/
def execHlt (ign : BitVec 8) (s : State) : Result :=
  privileged (encode (.hlt ign)) s (finish { s with intEnable := true, run := .halted })

/-- HCF: interrupts off, and nothing more ever happens (40_system.md R183). -/
def execHcf (ign : BitVec 8) (s : State) : Result :=
  privileged (encode (.hcf ign)) s (finish { s with intEnable := false, run := .dead })

/-- PXR (40_system.md R184). -/
def execPxr (rd : RegNum) (n : BitVec 5) (s : State) : Result :=
  privileged (encode (.pxr rd n)) s (pxRead rd n s)

/-- PXW (40_system.md R185, R186). -/
def execPxw (n : BitVec 5) (rs : RegNum) (s : State) : Result :=
  privileged (encode (.pxw n rs)) s (pxWrite n (s.reg rs) s)

/-- A programmable instruction: interrupt 6 where CF.P = 0; where CF.P = 1 the spec defines nothing
(40_system.md R187, U2; log 14). -/
def execProg (slot : BitVec 4) (body : BitVec 8) (s : State) : Result :=
  needsExt .prog (encode (.prog slot body)) s (.refused (.programmableUndefined slot))

end Sys2Proof.Machine
end

