-- ==== Sys2Proof/Machine/Dispatch.lean ====
section
/-! DEFINITION. One arm for each constructor of Instr: the meaning of an instruction, run with `s.ip` at the
next address (60_exceptions.md R310 steps 3 to 6). -/

namespace Sys2Proof.Machine

def exec (i : Instr) (s : State) : Host.Outcome State Fault Refusal :=
  match i with
  | .invRR00 rd rs => Sys2Proof.Machine.execInvRR00 rd rs s
  | .invRR01 rd rs => Sys2Proof.Machine.execInvRR01 rd rs s
  | .invRR02 rd rs => Sys2Proof.Machine.execInvRR02 rd rs s
  | .invRR03 rd rs => Sys2Proof.Machine.execInvRR03 rd rs s
  | .invRR04 rd rs => Sys2Proof.Machine.execInvRR04 rd rs s
  | .invRR05 rd rs => Sys2Proof.Machine.execInvRR05 rd rs s
  | .invRR06 rd rs => Sys2Proof.Machine.execInvRR06 rd rs s
  | .invRR07 rd rs => Sys2Proof.Machine.execInvRR07 rd rs s
  | .prdR rd rs => Sys2Proof.Machine.execPrdR rd rs s
  | .pwrR rd rs => Sys2Proof.Machine.execPwrR rd rs s
  | .xrd rd x => Sys2Proof.Machine.execXrd rd x s
  | .xwrR x rs => Sys2Proof.Machine.execXwrR x rs s
  | .mrdR rd rs => Sys2Proof.Machine.execMrdR rd rs s
  | .mwrR rd rs => Sys2Proof.Machine.execMwrR rd rs s
  | .mroR rd rs => Sys2Proof.Machine.execMroR rd rs s
  | .mwoR rd rs => Sys2Proof.Machine.execMwoR rd rs s
  | .mulR rd rs => Sys2Proof.Machine.execMulR rd rs s
  | .cmpR rd rs => Sys2Proof.Machine.execCmpR rd rs s
  | .divR rd rs => Sys2Proof.Machine.execDivR rd rs s
  | .tstR rd rs => Sys2Proof.Machine.execTstR rd rs s
  | .movR rd rs => Sys2Proof.Machine.execMovR rd rs s
  | .invRR15 rd rs => Sys2Proof.Machine.execInvRR15 rd rs s
  | .invRR16 rd rs => Sys2Proof.Machine.execInvRR16 rd rs s
  | .invRR17 rd rs => Sys2Proof.Machine.execInvRR17 rd rs s
  | .addR rd rs => Sys2Proof.Machine.execAddR rd rs s
  | .subR rd rs => Sys2Proof.Machine.execSubR rd rs s
  | .notR rd rs => Sys2Proof.Machine.execNotR rd rs s
  | .andR rd rs => Sys2Proof.Machine.execAndR rd rs s
  | .orrR rd rs => Sys2Proof.Machine.execOrrR rd rs s
  | .xorR rd rs => Sys2Proof.Machine.execXorR rd rs s
  | .shlR rd rs => Sys2Proof.Machine.execShlR rd rs s
  | .shrR rd rs => Sys2Proof.Machine.execShrR rd rs s
  | .int imm => Sys2Proof.Machine.execInt imm s
  | .irt ign => Sys2Proof.Machine.execIrt ign s
  | .hlt ign => Sys2Proof.Machine.execHlt ign s
  | .hcf ign => Sys2Proof.Machine.execHcf ign s
  | .invL0C ign => Sys2Proof.Machine.execInvL0C ign s
  | .invL0D ign => Sys2Proof.Machine.execInvL0D ign s
  | .pxr rd n => Sys2Proof.Machine.execPxr rd n s
  | .pxw n rs => Sys2Proof.Machine.execPxw n rs s
  | .calI imm => Sys2Proof.Machine.execCalI imm s
  | .jmpI imm => Sys2Proof.Machine.execJmpI imm s
  | .jcu leg imm => Sys2Proof.Machine.execJcu leg imm s
  | .jcs leg imm => Sys2Proof.Machine.execJcs leg imm s
  | .prog slot body => Sys2Proof.Machine.execProg slot body s
  | .prdI rd imm => Sys2Proof.Machine.execPrdI rd imm s
  | .pwrI imm rs => Sys2Proof.Machine.execPwrI imm rs s
  | .invS0A ign => Sys2Proof.Machine.execInvS0A ign s
  | .xwrI x imm => Sys2Proof.Machine.execXwrI x imm s
  | .mrdI rd imm => Sys2Proof.Machine.execMrdI rd imm s
  | .mwrI imm rs => Sys2Proof.Machine.execMwrI imm rs s
  | .mroI rd imm => Sys2Proof.Machine.execMroI rd imm s
  | .mwoI imm rs => Sys2Proof.Machine.execMwoI imm rs s
  | .mulI rd imm => Sys2Proof.Machine.execMulI rd imm s
  | .cmpI rd imm => Sys2Proof.Machine.execCmpI rd imm s
  | .divI rd imm => Sys2Proof.Machine.execDivI rd imm s
  | .tstI rd imm => Sys2Proof.Machine.execTstI rd imm s
  | .movI rd imm => Sys2Proof.Machine.execMovI rd imm s
  | .pop rd ign => Sys2Proof.Machine.execPop rd ign s
  | .psh rs ign => Sys2Proof.Machine.execPsh rs ign s
  | .calR rs ign => Sys2Proof.Machine.execCalR rs ign s
  | .jmpR rs ign => Sys2Proof.Machine.execJmpR rs ign s
  | .ret socz => Sys2Proof.Machine.execRet socz s
  | .invLAD ign => Sys2Proof.Machine.execInvLAD ign s
  | .invLAE ign => Sys2Proof.Machine.execInvLAE ign s
  | .nop ign => Sys2Proof.Machine.execNop ign s
  | .mcu leg rd rs => Sys2Proof.Machine.execMcu leg rd rs s
  | .mcs leg rd rs => Sys2Proof.Machine.execMcs leg rd rs s
  | .addI rd imm => Sys2Proof.Machine.execAddI rd imm s
  | .subI rd imm => Sys2Proof.Machine.execSubI rd imm s
  | .notI rd imm => Sys2Proof.Machine.execNotI rd imm s
  | .andI rd imm => Sys2Proof.Machine.execAndI rd imm s
  | .orrI rd imm => Sys2Proof.Machine.execOrrI rd imm s
  | .xorI rd imm => Sys2Proof.Machine.execXorI rd imm s
  | .shlI rd imm => Sys2Proof.Machine.execShlI rd imm s
  | .shrI rd imm => Sys2Proof.Machine.execShrI rd imm s

end Sys2Proof.Machine
end

