-- ==== Sys2Proof/Machine/Fetch.lean ====
section
/-! DEFINITION. What happens around an instruction: requests arrive from outside and are taken between
instructions, the instruction word is fetched (60_exceptions.md R310 steps 1 and 2, R312, R340). -/

namespace Sys2Proof.Machine

/-- One request becomes pending: a second timer tick merges with one that waits, I/O requests queue
(60_exceptions.md R340, D29). -/
def State.arrive (s : State) : ExtEvent → State
  | .timerTick => { s with pendingTimer := true }
  | .ioRequest q => { s with pendingIo := s.pendingIo ++ [q] }

/-- What the environment's schedule holds for this step becomes pending (log 9). -/
def State.poll (s : State) : State :=
  match s.arrivals with
  | [] => s
  | now :: later => now.foldl State.arrive { s with arrivals := later }

/-- The action code recorded in PX[13] by an I/O interrupt (60_exceptions.md R335). -/
def IoAction.code : IoAction → Word
  | .readFromPort => 0
  | .writeToPort => 1

/-- The external interrupt taken before the next instruction, if interrupts are enabled and one is pending:
the lowest id first, the request used up, PX[11] the instruction not yet executed (60_exceptions.md R310 step
1, R312, R330, R335). -/
def State.takeExternal (s : State) : Option State :=
  if s.intEnable = false then none
  else if s.pendingTimer then some ({ s with pendingTimer := false }.enter ⟨idTimer, s.ip, 0, 0, 0⟩)
  else match s.pendingIo with
    | [] => none
    | q :: rest => some ({ s with pendingIo := rest }.enter ⟨idIo, s.ip, q.port, q.action.code, 0⟩)

/-- The fetch at IP: `body` goes on with the word and the state in which IP is the next address. A page fault
records the address itself, a permission violation the address after it; the prefix is still there and is
saved (60_exceptions.md R310 step 2, R331, R333). -/
def fetchThen (s : State) (body : Word → State → Result) : Result :=
  match s.translate s.ip .execute with
  | (.ok pa, s1) => body (s1.fetchAt pa).1 ((s1.fetchAt pa).2.setIp (s.ip + 1))
  | (.pageFault, s1) => raise ⟨idPageFault, s.ip, s.ip, 0, 0⟩ s1
  | (.violation, s1) => raise ⟨idPermission, s.ip + 1, s.ip, AccessKind.execute.code, 0⟩ s1
  | (.refused r, _) => .refused r

/-- The physical word address the next fetch reads, where translation finds one; 0 where it finds none. -/
def State.fetchAddr (s : State) : Nat :=
  match (s.translate s.ip .execute).1 with
  | .ok pa => pa
  | _ => 0

/-- The state with an instruction word where the next fetch reads it, and no older word recorded there. -/
def State.plantWord (s : State) (w : Word) : State :=
  { s with mem := writeWord s.mem s.fetchAddr w, stale := cellDel s.stale s.fetchAddr }

/-! ## The initial memory (70_reset_and_hazards.md R372) -/

/-- The state with an image in physical memory: 16-bit words from address 0, as far as memory reaches
(70_reset_and_hazards.md R372; log 29). -/
def State.withImage (s : State) (image : List Word) : State :=
  { s with mem := writeWords s.mem 0 (image.take (s.cfg.memKiw.toNat * 1024)) }

/-- The machine at time 0 with a program: the reset state, given the initial contents of physical memory as a
list of words from address 0 (70_reset_and_hazards.md R371, R372). -/
def State.boot (image : List Word) : State := State.reset.withImage image

end Sys2Proof.Machine
end

