-- ==== Sys2Proof/Machine/Step.lean ====
section
/-! DEFINITION. One step of the machine (60_exceptions.md R310): nothing when dead; else an external interrupt
that is due; else a wait when halted; else one instruction. -/

namespace Sys2Proof.Machine

/-- A fetched word: its instruction runs, or the word is rejected by name (60_exceptions.md R310 step 3). -/
def runWord (w : Word) (s : State) : Host.Outcome State Fault Refusal :=
  match decode w with
  | .ok i => exec i s
  | .error _ => .refused (.reservedEncoding w)

/-- One step (60_exceptions.md R310). -/
def step (s : State) : Host.Outcome State Fault Refusal :=
  if s.run = .dead then .next s
  else match s.poll.takeExternal with
    | some t => .next t
    | none => if s.run = .halted then .next s.poll else fetchThen s.poll runWord

/-- `s` with the instruction whose bits are `w` stored where `step` fetches its next instruction (log 29). -/
def State.withFetchWord (s : State) (nbits w : Nat) : State := s.plantWord (BitVec.ofNat 16 (w % 2 ^ nbits))

end Sys2Proof.Machine
end

