-- ==== Sys2Proof/Safety.lean ====
section
/-! DEFINITION. The terms the statements are made in: the invariant of the machine, what an instruction leaves
unchanged, what an interrupt entry leaves behind, the condition table as the spec prints it, and the data
access of an instruction. -/

namespace Sys2Proof.Machine

/-! ## The invariant -/

/-- What every reachable state satisfies. -/
structure State.Inv (s : State) : Prop where
  /-- Memory is in its canonical form (log 1). -/
  memWf : Memory.wf s.mem
  /-- Nothing is listed outside physical memory (10_state.md R70). -/
  memInside : Memory.inside s.mem s.cfg.memKiw.toNat
  /-- The record of older words is in rising order (log 23). -/
  staleSorted : cellsSorted s.stale
  /-- UI is 0 unless the previous instruction wrote it (10_state.md R36). -/
  uiClear : s.uiValid = false → s.ui = 0
  /-- The saved prefix likewise (10_state.md R37). -/
  savedUiClear : s.savedUiValid = false → s.savedUi = 0
  /-- A halted processor can be woken (40_system.md R182). -/
  haltedEnabled : s.run = .halted → s.intEnable = true
  /-- A dead processor takes no interrupt (40_system.md R183). -/
  deadDisabled : s.run = .dead → s.intEnable = false
  /-- A table that is in use lies in frame 0 (20_memory.md R105). -/
  tableInFrame0 : s.ptKnown = true → s.ptBase.toNat + 31 ≤ 0x07FF
  /-- A flush turns paging on, and nothing turns it off (10_state.md R62). -/
  tablePaged : s.ptKnown = true → s.paging = true
  /-- The constants are those of a machine of this ISA (10_state.md R33, R53). -/
  cfgWf : s.cfg.wf = true

/-- A step with no stop: what a safe run is made of. -/
def SafeStep (s : State) : Prop := ∃ t, step s = .next t

/-! ## Frames -/

/-- The prefix is cleared, as after every instruction that is no write to UI and no IRT (10_state.md R36). -/
def PrefixCleared (t : State) : Prop := t.ui = 0 ∧ t.uiValid = false

/-- Nothing differs between `s` and `t` but R[rd], FL, the prefix and the count of free values: every other
register, every special and exception register and all of memory stand as in `s`. -/
def OnlyRegAndFlags (rd : RegNum) (s t : State) : Prop :=
  (∀ r, r ≠ rd → t.reg r = s.reg r) ∧
    { t with regs := s.regs, fl := s.fl, draws := s.draws, ui := s.ui, uiValid := s.uiValid } = s

/-- Nothing differs but R[rd] and the prefix. -/
def OnlyReg (rd : RegNum) (s t : State) : Prop :=
  (∀ r, r ≠ rd → t.reg r = s.reg r) ∧ { t with regs := s.regs, ui := s.ui, uiValid := s.uiValid } = s

/-- Nothing differs but FL, the prefix and the count of free values. -/
def OnlyFlags (s t : State) : Prop :=
  { t with fl := s.fl, draws := s.draws, ui := s.ui, uiValid := s.uiValid } = s

/-- S and Z are those of a 16-bit result (10_state.md R41). -/
def SignZeroOf (r : Word) (f : Flags) : Prop := (f.s = true ↔ 32768 ≤ r.toNat) ∧ (f.z = true ↔ r.toNat = 0)

/-- An instruction that writes R[rd], sets S and Z from it and leaves O and C undefined. -/
def ResultSz (res : Result) (s : State) (rd : RegNum) (P : Word → Prop) : Prop :=
  ∃ t, res = .next t ∧ P (t.reg rd) ∧ SignZeroOf (t.reg rd) t.fl ∧ OnlyRegAndFlags rd s t ∧ PrefixCleared t

/-- The carry or borrow taken in: FL.C in big-int mode, which needs F1.B and CF.B, else 0
(45_alu_logic_shift.md R280). -/
def carryOf (s : State) : Nat :=
  if s.f1.getLsbD 0 = true ∧ s.cfg.cf.getLsbD 8 = true ∧ s.fl.c = true then 1 else 0

/-- The four flags of a sum: AddC of 45_alu_logic_shift.md R280. -/
def SumFlags (a b : Word) (cin : Nat) (r : Word) (f : Flags) : Prop :=
  SignZeroOf r f ∧ (f.c = true ↔ 65536 ≤ a.toNat + b.toNat + cin) ∧
    (f.o = true ↔ ¬ (-32768 ≤ a.toInt + b.toInt + cin ∧ a.toInt + b.toInt + cin ≤ 32767))

/-- The four flags of a difference: SubB of 45_alu_logic_shift.md R280. -/
def DiffFlags (a b : Word) (bin : Nat) (r : Word) (f : Flags) : Prop :=
  SignZeroOf r f ∧ (f.c = true ↔ a.toNat < b.toNat + bin) ∧
    (f.o = true ↔ ¬ (-32768 ≤ a.toInt - b.toInt - bin ∧ a.toInt - b.toInt - bin ≤ 32767))

/-! ## Interrupt entry -/

/-- `t` is the machine right after interrupt `r` was entered from `s`: the record, the saved privilege and
prefix, interrupts off, level 1, IP at the handler, and nothing else changed (60_exceptions.md R320). -/
def EnteredFrom (s t : State) (r : IntRecord) : Prop :=
  (t.pxId = r.id.setWidth 16 ∧ t.pxIp = r.ip ∧ t.pxInfo0 = r.info0 ∧ t.pxInfo1 = r.info1 ∧
    t.pxInfo2 = r.info2) ∧
  (t.savedPriv = s.priv ∧ t.savedUi = s.ui ∧ t.savedUiValid = s.uiValid) ∧
  (t.ui = 0 ∧ t.uiValid = false ∧ t.intEnable = false ∧ t.priv = .supervisor ∧ t.run = .running) ∧
  t.ip = s.iht[r.id.toNat] ∧
  { t with
    pxId := s.pxId, pxIp := s.pxIp, pxInfo0 := s.pxInfo0, pxInfo1 := s.pxInfo1, pxInfo2 := s.pxInfo2,
    savedPriv := s.savedPriv, savedUi := s.savedUi, savedUiValid := s.savedUiValid, ui := s.ui,
    uiValid := s.uiValid, intEnable := s.intEnable, priv := s.priv, run := s.run, ip := s.ip } = s

/-- The cached table and the count of free values of `t` are those that the translation of one access from `s`
leaves; `EntryInForce` and `PagedTranslation` say that this is the entry of one page, and one free value, at
most (20_memory.md R107). -/
def TranslationLeft (va : Word) (kind : AccessKind) (s t : State) : Prop :=
  t.ptCache = (s.translate va kind).2.ptCache ∧ t.draws = (s.translate va kind).2.draws

/-- `u` is `s` but for what the translation of the access leaves, and the prefix, which is cleared
(20_memory.md R107, 60_exceptions.md R310 step 6). -/
def AccessedOnly (va : Word) (kind : AccessKind) (s u : State) : Prop :=
  PrefixCleared u ∧ TranslationLeft va kind s u ∧
    { u with ptCache := s.ptCache, draws := s.draws, ui := s.ui, uiValid := s.uiValid } = s

/-- `u` is `s` but for what the translation of the access leaves. -/
def FetchedOnly (va : Word) (s u : State) : Prop :=
  TranslationLeft va .execute s u ∧ { u with ptCache := s.ptCache, draws := s.draws } = s

/-! ## The condition table as printed (41_control.md R204) -/

/-- Codes 010 and 101 under a reading of LEG_E_SENSE. -/
def HoldsE (sense : LegSense) (f : Flags) : Prop :=
  match sense with
  | .literal => f.z = false
  | .structural => f.z = true

/-- CondU, row by row. -/
def HoldsU (sense : LegSense) (f : Flags) : Leg → Prop
  | .l000 => False
  | .l001 => f.c = false ∧ f.z = false
  | .l010 => HoldsE sense f
  | .l011 => f.c = false
  | .l100 => f.c = true
  | .l101 => ¬ HoldsE sense f
  | .l110 => f.c = true ∨ f.z = true
  | .l111 => True

/-- CondS, row by row. -/
def HoldsS (sense : LegSense) (f : Flags) : Leg → Prop
  | .l000 => False
  | .l001 => f.s = f.o ∧ f.z = false
  | .l010 => HoldsE sense f
  | .l011 => f.s = f.o
  | .l100 => f.s ≠ f.o
  | .l101 => ¬ HoldsE sense f
  | .l110 => f.s ≠ f.o ∨ f.z = true
  | .l111 => True

/-! ## The data access of an instruction (43_memory_stack.md) -/

/-- The virtual address an instruction reads or writes, the kind of access, and whether the address comes from
an immediate that the preceding instruction extended (60_exceptions.md R331). -/
def dataAccessOf (s : State) : Instr → Option (Word × AccessKind × Bool)
  | .mrdR _ rs => some (s.reg rs, .read, false)
  | .mrdI _ imm => some (s.ui ++ imm, .read, s.uiValid)
  | .mroR _ rs => some (s.ofs + s.reg rs, .read, false)
  | .mroI _ imm => some (s.ofs + (s.ui ++ imm), .read, s.uiValid)
  | .mwrR rd _ => some (s.reg rd, .write, false)
  | .mwrI imm _ => some (s.ui ++ imm, .write, s.uiValid)
  | .mwoR rd _ => some (s.ofs + s.reg rd, .write, false)
  | .mwoI imm _ => some (s.ofs + (s.ui ++ imm), .write, s.uiValid)
  | .pop _ _ => some (s.sp, .read, false)
  | .psh _ _ => some (s.sp - 1, .write, false)
  | _ => none

/-- The instructions that need privilege level 1 whatever their operands (60_exceptions.md R332, P column). -/
def alwaysPrivileged : Instr → Bool
  | .irt _ | .hlt _ | .hcf _ | .pxr _ _ | .pxw _ _ | .prdR _ _ | .prdI _ _ | .pwrR _ _ | .pwrI _ _ => true
  | _ => false

/-- The extension an instruction needs (30_encoding.md R169). -/
def extensionOf : Instr → Option Extension
  | .mulR _ _ | .mulI _ _ => some .mul
  | .divR _ _ | .divI _ _ => some .div
  | .mcu _ _ _ | .mcs _ _ _ => some .condMove
  | .prog _ _ => some .prog
  | _ => none

/-- The rows that hold no instruction (30_encoding.md R165). -/
def invalidRow : Instr → Bool
  | .invRR00 _ _ | .invRR01 _ _ | .invRR02 _ _ | .invRR03 _ _ | .invRR04 _ _ | .invRR05 _ _ | .invRR06 _ _
  | .invRR07 _ _ | .invRR15 _ _ | .invRR16 _ _ | .invRR17 _ _ | .invL0C _ | .invL0D _ | .invLAD _ | .invLAE _
  | .invS0A _ => true
  | _ => false

/-- The words the opcode map marks invalid, by their bits (30_encoding.md R165). -/
def invalidWord (w : Word) : Prop :=
  (w.extractLsb' 11 5 = 0 ∧ ((w.extractLsb' 0 5).toNat ≤ 7 ∨
      (21 ≤ (w.extractLsb' 0 5).toNat ∧ (w.extractLsb' 0 5).toNat ≤ 23))) ∨
    w.extractLsb' 8 8 ∈ [0x0C#8, 0x0D#8, 0xAD#8, 0xAE#8] ∨ w.extractLsb' 11 5 = 10#5

/-- The words with a must-be-zero bit at 1 (30_encoding.md R166). -/
def mustBeZeroWord (w : Word) : Prop :=
  ((w.extractLsb' 11 5 = 22#5 ∨ w.extractLsb' 11 5 = 23#5) ∧ (w.getLsbD 4 = true ∨ w.getLsbD 0 = true)) ∨
    (w.extractLsb' 8 8 = 0xAC#8 ∧ w.extractLsb' 0 4 ≠ 0)

/-! ## A step with nothing outside -/

/-- The machine runs unpaged, nothing arrives or waits, and no older word is recorded where it fetches: the
step is the instruction in memory at IP. -/
def Quiet (s : State) : Prop :=
  s.run = .running ∧ s.arrivals = [] ∧ (s.intEnable = false ∨ (s.pendingTimer = false ∧ s.pendingIo = [])) ∧
    s.paging = false ∧ cellGet s.stale s.ip.toNat = none

end Sys2Proof.Machine
end

