-- ==== Sys2Proof/Certificates/Slice0/Obligations.lean ====
section
/-! DEFINITION. The statements for the provers, by the file of spec/ they come from. While an instruction
executes, `s.ip` is the address of the next one and the instruction stands at `s.ip - 1`. A statement that an
instruction answers a next state says it for every state that meets its hypotheses. -/

open Sys2Proof Sys2Proof.Machine

/-! ## Encoding (30_encoding.md) -/

/-- Decoding the word of an instruction gives the instruction, every operand at every value. -/
def Obligations.DecodeOfEncode : Prop := ∀ i : Instr, decode (encode i) = .ok i

/-- A decoded word is the word of the instruction it decodes to: no bit is lost, the ignored ones included. -/
def Obligations.EncodeOfDecode : Prop := ∀ (w : Word) (i : Instr), decode w = .ok i → encode i = w

/-- Exactly the words with a must-be-zero bit at 1 are no instruction, and running one is refused (R166). The
refusal is the spec's own decision D12. -/
def Obligations.MustBeZeroWordsAreRefused : Prop :=
  ∀ w : Word, (mustBeZeroWord w ↔ ∃ e, decode w = .error e) ∧
    (mustBeZeroWord w → ∀ s, runWord w s = .refused (.reservedEncoding w))

/-- Every word the opcode map marks invalid raises interrupt 6 (R165, R336). That the saved prefix is clear is the
spec's own decision D22, here and wherever an instruction raises an interrupt. -/
def Obligations.InvalidWordsRaiseInterrupt6 : Prop :=
  ∀ (w : Word) (s : State), invalidWord w → s.intEnable = true →
    ∃ t, runWord w s = .next t ∧ EnteredFrom s.clearUi t ⟨6, s.ip, w, 0, 0⟩

/-- Each row that holds no instruction enters interrupt 6 with its word in PX[12] (R165, R336). The prefix is
clear in the saved state: the order of events is the spec's own decision D22. -/
def Obligations.InvalidRowsEnterInterrupt6 : Prop :=
  ∀ (i : Instr) (s : State), invalidRow i = true → s.intEnable = true →
    ∃ t, exec i s = .next t ∧ EnteredFrom s.clearUi t ⟨6, s.ip, encode i, 0, 0⟩

/-- In every format the immediate is the field rotated right by one, its top bit last (R145). That a split
field is the concatenation of its groups is the spec's own inference there. -/
def Obligations.ImmediateTopBitComesLast : Prop :=
  ∀ w : Word,
    (let f : BitVec 8 := w.extractLsb' 8 3 ++ w.extractLsb' 0 5
     imm8RegImm w = f.rotateRight 1 ∧ f = (imm8RegImm w).rotateLeft 1) ∧
    (let f : BitVec 11 := w.extractLsb' 0 11
     imm11Long w = f.rotateRight 1 ∧ f = (imm11Long w).rotateLeft 1) ∧
    (let f : BitVec 8 := w.extractLsb' 4 7 ++ w.extractLsb' 0 1
     imm8JmpCcc w = f.rotateRight 1 ∧ f = (imm8JmpCcc w).rotateLeft 1) ∧
    (let f : BitVec 8 := w.extractLsb' 0 8
     imm8LongImm w = f.rotateRight 1 ∧ f = (imm8LongImm w).rotateLeft 1) ∧
    (let f : BitVec 5 := w.extractLsb' 0 5
     imm5LongRegImm w = f.rotateRight 1 ∧ f = (imm5LongRegImm w).rotateLeft 1)

/-- Words written out bit by bit from the spec's diagrams, at least one of each format R135 to R142, decode to the
instructions they stand for. -/
def Obligations.SampleWordsDecode : Prop :=
  decode 0x0238#16 = .ok (.addR 1 2) ∧ decode 0xA02B#16 = .ok (.movI 1 0x85) ∧
  decode 0x12AB#16 = .ok (.calI 0x555) ∧ decode 0x2FE9#16 = .ok (.jcs .l100 0xFE) ∧
  decode 0xB8EC#16 = .ok (.mcs .l110 7 0) ∧ decode 0x0E76#16 = .ok (.pxr 3 11) ∧
  decode 0xAC50#16 = .ok (.ret 5) ∧ decode 0x056A#16 = .ok (.xrd 3 .fl) ∧ decode 0x0855#16 = .ok (.int 0xAA)

/-! ## Sums, differences and comparison (45_alu_logic_shift.md, 44_arith_move.md, 41_control.md) -/

/-- ADD, both forms (R281), whatever the privilege level and the extensions. The wrap, the flags of a sum with
a carry and the need of CF.B are the spec's own decisions D2, D6, D32. -/
def Obligations.AddGivesSumAndFlags : Prop :=
  (∀ rd rs, encode (.addR rd rs) &&& 0xF81F#16 = 0x0018#16) ∧
  (∀ rd imm, encode (.addI rd imm) &&& 0xF800#16 = 0xC000#16) ∧
  ∀ (s : State) (rd : RegNum) (i : Instr) (b : Word),
    (∃ rs, i = .addR rd rs ∧ b = s.reg rs) ∨ (∃ imm, i = .addI rd imm ∧ b = s.ui ++ imm) →
    ∃ t, exec i s = .next t ∧
      (t.reg rd).toNat = ((s.reg rd).toNat + b.toNat + carryOf s) % 65536 ∧
      SumFlags (s.reg rd) b (carryOf s) (t.reg rd) t.fl ∧
      OnlyRegAndFlags rd s t ∧ t.draws = s.draws ∧ PrefixCleared t

/-- SUB, both forms (R282). The wrap, the flags of a difference with a borrow and the need of CF.B are the
spec's own decisions D2, D6, D32. -/
def Obligations.SubGivesDifferenceAndFlags : Prop :=
  (∀ rd rs, encode (.subR rd rs) &&& 0xF81F#16 = 0x0019#16) ∧
  (∀ rd imm, encode (.subI rd imm) &&& 0xF800#16 = 0xC800#16) ∧
  ∀ (s : State) (rd : RegNum) (i : Instr) (b : Word),
    (∃ rs, i = .subR rd rs ∧ b = s.reg rs) ∨ (∃ imm, i = .subI rd imm ∧ b = s.ui ++ imm) →
    ∃ t, exec i s = .next t ∧
      ((t.reg rd).toNat : Int) = ((s.reg rd).toNat - b.toNat - carryOf s) % 65536 ∧
      DiffFlags (s.reg rd) b (carryOf s) (t.reg rd) t.fl ∧
      OnlyRegAndFlags rd s t ∧ t.draws = s.draws ∧ PrefixCleared t

/-- CMP, both forms, sets the flags of the difference and writes no register (R262). The flags of a difference
with a borrow and the need of CF.B are the spec's own decisions D6, D32. -/
def Obligations.CmpSetsFlagsOfDifference : Prop :=
  (∀ rd rs, encode (.cmpR rd rs) &&& 0xF81F#16 = 0x0011#16) ∧
  (∀ rd imm, encode (.cmpI rd imm) &&& 0xF800#16 = 0x8800#16) ∧
  ∀ (s : State) (rd : RegNum) (i : Instr) (b : Word),
    (∃ rs, i = .cmpR rd rs ∧ b = s.reg rs) ∨ (∃ imm, i = .cmpI rd imm ∧ b = s.ui ++ imm) →
    ∃ t r, exec i s = .next t ∧
      ((r : Word).toNat : Int) = ((s.reg rd).toNat - b.toNat - carryOf s) % 65536 ∧
      DiffFlags (s.reg rd) b (carryOf s) r t.fl ∧
      OnlyFlags s t ∧ t.draws = s.draws ∧ PrefixCleared t

/-- The condition table of R204 under both readings of LEG_E_SENSE, and what each code means after `cmp a, b`
with big-int off. That codes 010 and 101 read literally is the spec's own decision D13. -/
def Obligations.ConditionCodesMeanComparisons : Prop :=
  (∀ sense f leg, (condU sense f leg = true ↔ HoldsU sense f leg) ∧
    (condS sense f leg = true ↔ HoldsS sense f leg)) ∧
  ∀ (s : State) (ra rb : RegNum), carryOf s = 0 →
    ∃ t, exec (.cmpR ra rb) s = .next t ∧
      ∀ leg,
        (condU .literal t.fl leg = true ↔ match leg with
          | .l000 => False
          | .l001 => (s.reg rb).toNat < (s.reg ra).toNat
          | .l010 => s.reg ra ≠ s.reg rb
          | .l011 => (s.reg rb).toNat ≤ (s.reg ra).toNat
          | .l100 => (s.reg ra).toNat < (s.reg rb).toNat
          | .l101 => s.reg ra = s.reg rb
          | .l110 => (s.reg ra).toNat ≤ (s.reg rb).toNat
          | .l111 => True) ∧
        (condS .literal t.fl leg = true ↔ match leg with
          | .l000 => False
          | .l001 => (s.reg rb).toInt < (s.reg ra).toInt
          | .l010 => s.reg ra ≠ s.reg rb
          | .l011 => (s.reg rb).toInt ≤ (s.reg ra).toInt
          | .l100 => (s.reg ra).toInt < (s.reg rb).toInt
          | .l101 => s.reg ra = s.reg rb
          | .l110 => (s.reg ra).toInt ≤ (s.reg rb).toInt
          | .l111 => True)

/-! ## Logic, shifts, multiply, divide, moves (45_alu_logic_shift.md, 44_arith_move.md) -/

/-- NOT, AND, ORR, XOR, both forms, bit by bit; S and Z of the result (R283 to R286). AND's flags are the
spec's own decision D7. -/
def Obligations.LogicWorksBitByBit : Prop :=
  ((∀ rd rs, encode (.notR rd rs) &&& 0xF81F#16 = 0x001A#16) ∧
    (∀ rd imm, encode (.notI rd imm) &&& 0xF800#16 = 0xD000#16) ∧
    (∀ rd rs, encode (.andR rd rs) &&& 0xF81F#16 = 0x001B#16) ∧
    (∀ rd imm, encode (.andI rd imm) &&& 0xF800#16 = 0xD800#16) ∧
    (∀ rd rs, encode (.orrR rd rs) &&& 0xF81F#16 = 0x001C#16) ∧
    (∀ rd imm, encode (.orrI rd imm) &&& 0xF800#16 = 0xE000#16) ∧
    (∀ rd rs, encode (.xorR rd rs) &&& 0xF81F#16 = 0x001D#16) ∧
    (∀ rd imm, encode (.xorI rd imm) &&& 0xF800#16 = 0xE800#16)) ∧
  ∀ (s : State) (rd rs : RegNum) (imm : BitVec 8),
    let bits (f : Bool → Bool → Bool) (b : Word) (r : Word) : Prop :=
      ∀ n, n < 16 → r.getLsbD n = f ((s.reg rd).getLsbD n) (b.getLsbD n)
    ResultSz (exec (.notR rd rs) s) s rd (bits (fun _ y => !y) (s.reg rs)) ∧
    ResultSz (exec (.notI rd imm) s) s rd (bits (fun _ y => !y) (s.ui ++ imm)) ∧
    ResultSz (exec (.andR rd rs) s) s rd (bits (fun x y => x && y) (s.reg rs)) ∧
    ResultSz (exec (.andI rd imm) s) s rd (bits (fun x y => x && y) (s.ui ++ imm)) ∧
    ResultSz (exec (.orrR rd rs) s) s rd (bits (fun x y => x || y) (s.reg rs)) ∧
    ResultSz (exec (.orrI rd imm) s) s rd (bits (fun x y => x || y) (s.ui ++ imm)) ∧
    ResultSz (exec (.xorR rd rs) s) s rd (bits (fun x y => x != y) (s.reg rs)) ∧
    ResultSz (exec (.xorI rd imm) s) s rd (bits (fun x y => x != y) (s.ui ++ imm))

/-- R266: TST, both forms: S and Z of the conjunction, no register written. -/
def Obligations.TstSetsSignAndZero : Prop :=
  (∀ rd rs, encode (.tstR rd rs) &&& 0xF81F#16 = 0x0013#16) ∧
  (∀ rd imm, encode (.tstI rd imm) &&& 0xF800#16 = 0x9800#16) ∧
  ∀ (s : State) (rd : RegNum) (i : Instr) (b : Word),
    (∃ rs, i = .tstR rd rs ∧ b = s.reg rs) ∨ (∃ imm, i = .tstI rd imm ∧ b = s.ui ++ imm) →
    ∃ t, exec i s = .next t ∧ SignZeroOf (s.reg rd &&& b) t.fl ∧ OnlyFlags s t ∧ PrefixCleared t

/-- SHL, both forms: multiplication by a power of two, 0 from count 16 on (R287). That the count is unsigned is
the spec's own decision D11. -/
def Obligations.ShlMultipliesByPowerOfTwo : Prop :=
  (∀ rd rs, encode (.shlR rd rs) &&& 0xF81F#16 = 0x001E#16) ∧
  (∀ rd imm, encode (.shlI rd imm) &&& 0xF800#16 = 0xF000#16) ∧
  ∀ (s : State) (rd : RegNum) (i : Instr) (b : Word),
    (∃ rs, i = .shlR rd rs ∧ b = s.reg rs) ∨ (∃ imm, i = .shlI rd imm ∧ b = s.ui ++ imm) →
    ResultSz (exec i s) s rd fun r =>
      r.toNat = if 15 < b.toNat then 0 else (s.reg rd).toNat * 2 ^ b.toNat % 65536

/-- SHR, both forms: the floor of a division by a power of two, unsigned or, with F1.S, signed (R288). That the
count is unsigned is the spec's own decision D11. -/
def Obligations.ShrDividesByPowerOfTwo : Prop :=
  (∀ rd rs, encode (.shrR rd rs) &&& 0xF81F#16 = 0x001F#16) ∧
  (∀ rd imm, encode (.shrI rd imm) &&& 0xF800#16 = 0xF800#16) ∧
  ∀ (s : State) (rd : RegNum) (i : Instr) (b : Word),
    (∃ rs, i = .shrR rd rs ∧ b = s.reg rs) ∨ (∃ imm, i = .shrI rd imm ∧ b = s.ui ++ imm) →
    ResultSz (exec i s) s rd fun r =>
      if s.f1.getLsbD 1 = true then
        r.toInt = if 15 < b.toNat then (if (s.reg rd).toInt < 0 then -1 else 0)
          else (s.reg rd).toInt / 2 ^ b.toNat
      else r.toNat = if 15 < b.toNat then 0 else (s.reg rd).toNat / 2 ^ b.toNat

/-- MUL, both forms: the low 16 bits of the product whatever F1.S; interrupt 6 where CF.M = 0 (R260). That the
low half is kept is the spec's own decision D8. -/
def Obligations.MulGivesLowHalf : Prop :=
  (∀ rd rs, encode (.mulR rd rs) &&& 0xF81F#16 = 0x0010#16) ∧
  (∀ rd imm, encode (.mulI rd imm) &&& 0xF800#16 = 0x8000#16) ∧
  ∀ (s : State) (rd : RegNum) (i : Instr) (b : Word),
    (∃ rs, i = .mulR rd rs ∧ b = s.reg rs) ∨ (∃ imm, i = .mulI rd imm ∧ b = s.ui ++ imm) →
    (s.cfg.cf.getLsbD 0 = true → ResultSz (exec i s) s rd fun r =>
      r.toNat = (s.reg rd).toNat * b.toNat % 65536 ∧
      (r.toNat : Int) = (s.reg rd).toInt * b.toInt % 65536) ∧
    (s.cfg.cf.getLsbD 0 = false → s.intEnable = true →
      ∃ t, exec i s = .next t ∧ EnteredFrom s.clearUi t ⟨6, s.ip, encode i, 0, 0⟩)

/-- DIV, both forms: the quotient, toward zero in signed mode; the unrepresentable quotient runs on with
an undefined result; a zero divisor leaves an undefined result and enters interrupt 4; interrupt 6 where
CF.D = 0 (R264). The rounding and the undefined results are the spec's own decisions D9, D10. -/
def Obligations.DivGivesQuotient : Prop :=
  (∀ rd rs, encode (.divR rd rs) &&& 0xF81F#16 = 0x0012#16) ∧
  (∀ rd imm, encode (.divI rd imm) &&& 0xF800#16 = 0x9000#16) ∧
  ∀ (s : State) (rd : RegNum) (i : Instr) (b : Word),
    (∃ rs, i = .divR rd rs ∧ b = s.reg rs) ∨ (∃ imm, i = .divI rd imm ∧ b = s.ui ++ imm) →
    (s.cfg.cf.getLsbD 1 = false → s.intEnable = true →
      ∃ t, exec i s = .next t ∧ EnteredFrom s.clearUi t ⟨6, s.ip, encode i, 0, 0⟩) ∧
    (s.cfg.cf.getLsbD 1 = true →
      (b ≠ 0 → s.f1.getLsbD 1 = false →
        ResultSz (exec i s) s rd fun r => r.toNat = (s.reg rd).toNat / b.toNat) ∧
      (b ≠ 0 → s.f1.getLsbD 1 = true → ¬ ((s.reg rd).toInt = -32768 ∧ b.toInt = -1) →
        ResultSz (exec i s) s rd fun r => r.toInt = (s.reg rd).toInt.tdiv b.toInt) ∧
      (s.f1.getLsbD 1 = true → (s.reg rd).toInt = -32768 → b.toInt = -1 →
        ∃ t, exec i s = .next t ∧ OnlyRegAndFlags rd s t ∧ PrefixCleared t) ∧
      (b = 0 → s.intEnable = true →
        ∃ t u, exec i s = .next t ∧ EnteredFrom u t ⟨4, s.ip, 0, 0, 0⟩ ∧ OnlyRegAndFlags rd s u ∧
          PrefixCleared u))

/-- O and C after the nine instructions that leave them undefined are free bits, drawn anew, also where DIV goes
on to enter interrupt 4 (R42, R43). That AND is one of the nine is the spec's own decision D7; that the bits are
drawn from a counter is the model's choice (log 6, 7). -/
def Obligations.UndefinedFlagsAreFreshDraws : Prop :=
  ∀ (s : State) (rd rs : RegNum) (imm : BitVec 8) (i : Instr) (t : State),
    i ∈ [.andR rd rs, .andI rd imm, .orrR rd rs, .orrI rd imm, .xorR rd rs, .xorI rd imm, .notR rd rs,
      .notI rd imm, .tstR rd rs, .tstI rd imm, .shlR rd rs, .shlI rd imm, .shrR rd rs, .shrI rd imm,
      .mulR rd rs, .mulI rd imm, .divR rd rs, .divI rd imm] →
    exec i s = .next t → (∀ e, extensionOf i = some e → s.hasExt e = true) →
    ∃ m n, s.draws ≤ m ∧ m < n ∧ n < t.draws ∧ t.fl.o = Config.freeBit m ∧ t.fl.c = Config.freeBit n

/-- R268: MOV, both forms. -/
def Obligations.MovCopiesOperand : Prop :=
  (∀ rd rs, encode (.movR rd rs) &&& 0xF81F#16 = 0x0014#16) ∧
  (∀ rd imm, encode (.movI rd imm) &&& 0xF800#16 = 0xA000#16) ∧
  ∀ (s : State) (rd rs : RegNum) (imm : BitVec 8),
    (∃ t, exec (.movR rd rs) s = .next t ∧ t.reg rd = s.reg rs ∧ OnlyReg rd s t ∧ PrefixCleared t) ∧
    (∃ t, exec (.movI rd imm) s = .next t ∧ t.reg rd = s.ui ++ imm ∧ OnlyReg rd s t ∧ PrefixCleared t)

/-- MCU and MCS move where their condition holds; interrupt 6 where CF.C = 0 (R275, R276; the saved prefix by the
spec's own decision D22). -/
def Obligations.ConditionalMoves : Prop :=
  (∀ leg rd rs, encode (.mcu leg rd rs) &&& 0xF811#16 = 0xB000#16) ∧
  (∀ leg rd rs, encode (.mcs leg rd rs) &&& 0xF811#16 = 0xB800#16) ∧
  (∀ leg rd rs w, w = encode (.mcu leg rd rs) ∨ w = encode (.mcs leg rd rs) →
    w.extractLsb' 8 3 = rs ∧ w.extractLsb' 5 3 = rd ∧ w.extractLsb' 1 3 = leg.toBits) ∧
  ∀ (s : State) (leg : Leg) (rd rs : RegNum) (i : Instr) (holds : Prop),
    (i = .mcu leg rd rs ∧ holds = HoldsU s.cfg.legSense s.fl leg) ∨
      (i = .mcs leg rd rs ∧ holds = HoldsS s.cfg.legSense s.fl leg) →
    (s.cfg.cf.getLsbD 3 = true → ∃ t, exec i s = .next t ∧ OnlyReg rd s t ∧ PrefixCleared t ∧
      (holds → t.reg rd = s.reg rs) ∧ (¬ holds → t.reg rd = s.reg rd)) ∧
    (s.cfg.cf.getLsbD 3 = false → s.intEnable = true →
      ∃ t, exec i s = .next t ∧ EnteredFrom s.clearUi t ⟨6, s.ip, encode i, 0, 0⟩)

/-! ## Control transfer (41_control.md) -/

/-- Calls and jumps, both forms, relative to the next address; CAL leaves the next address in LR (R200, R201,
R205, R206). That the register forms take no prefix is the spec's own decision D39. -/
def Obligations.CallsAndJumpsAreRelative : Prop :=
  (∀ imm, encode (.calI imm) &&& 0xF800#16 = 0x1000#16) ∧
  (∀ imm, encode (.jmpI imm) &&& 0xF800#16 = 0x1800#16) ∧
  (∀ rs ign, encode (.calR rs ign) &&& 0xFF00#16 = 0xAA00#16) ∧
  (∀ rs ign, encode (.jmpR rs ign) &&& 0xFF00#16 = 0xAB00#16) ∧
  (∀ rs ign, (encode (.calR rs ign)).extractLsb' 5 3 = rs ∧ (encode (.jmpR rs ign)).extractLsb' 5 3 = rs) ∧
  ∀ (s : State) (imm : BitVec 11) (rs : RegNum) (ign : BitVec 5),
    let off : Word := if s.uiValid = true then s.ui ++ imm.extractLsb' 0 8 else imm.signExtend 16
    exec (.calI imm) s = .next { s with lr := s.ip, ip := s.ip + off, ui := 0, uiValid := false } ∧
    exec (.jmpI imm) s = .next { s with ip := s.ip + off, ui := 0, uiValid := false } ∧
    exec (.calR rs ign) s = .next { s with lr := s.ip, ip := s.ip + s.reg rs, ui := 0, uiValid := false } ∧
    exec (.jmpR rs ign) s = .next { s with ip := s.ip + s.reg rs, ui := 0, uiValid := false }

/-- JCU and JCS jump where their condition holds and go on where it does not (R202, R203, R204). The reading of
codes 010 and 101 is the spec's own decision D13, carried by LEG_E_SENSE; the wrap of the sum its decision D2. -/
def Obligations.ConditionalJumps : Prop :=
  (∀ leg imm, encode (.jcu leg imm) &&& 0xF800#16 = 0x2000#16) ∧
  (∀ leg imm, encode (.jcs leg imm) &&& 0xF800#16 = 0x2800#16) ∧
  (∀ leg imm, (encode (.jcu leg imm)).extractLsb' 1 3 = leg.toBits ∧
    (encode (.jcs leg imm)).extractLsb' 1 3 = leg.toBits) ∧
  ∀ (s : State) (leg : Leg) (imm : BitVec 8) (i : Instr) (holds : Prop),
    (i = .jcu leg imm ∧ holds = HoldsU s.cfg.legSense s.fl leg) ∨
      (i = .jcs leg imm ∧ holds = HoldsS s.cfg.legSense s.fl leg) →
    let off : Word := if s.uiValid = true then s.ui ++ imm else imm.signExtend 16
    (holds → exec i s = .next { s with ip := s.ip + off, ui := 0, uiValid := false }) ∧
    (¬ holds → exec i s = .next { s with ui := 0, uiValid := false })

/-- R207: RET goes to LR and sets the four flags from the instruction. -/
def Obligations.RetReturnsWithFlags : Prop :=
  (∀ socz, encode (.ret socz) &&& 0xFF0F#16 = 0xAC00#16 ∧ (encode (.ret socz)).extractLsb' 4 4 = socz) ∧
  ∀ (s : State) (socz : BitVec 4), ∃ t, exec (.ret socz) s = .next t ∧ t.ip = s.lr ∧
    t.fl.toWord = socz.setWidth 16 ∧
    { t with ip := s.ip, fl := s.fl, ui := s.ui, uiValid := s.uiValid } = s ∧ PrefixCleared t

/-- R208: NOP only clears the prefix. -/
def Obligations.NopOnlyClearsPrefix : Prop :=
  (∀ ign, encode (.nop ign) &&& 0xFF00#16 = 0xAF00#16) ∧
  ∀ (s : State) (ign : BitVec 8), exec (.nop ign) s = .next { s with ui := 0, uiValid := false }

/-! ## Ports and external registers (42_port_extreg.md) -/

/-- PRD and PWR, both forms, at level 1 (R220, R221): the port number is the operand, a read gives R[d] the
word the device answers, a write is an output event. The oracle and the trace are the spec's own decision D28,
held as log 11 says; that the prefix enters the port number is its decision D3 (R150). -/
def Obligations.PortAccesses : Prop :=
  ∀ (s : State) (rd rs : RegNum) (imm : BitVec 8), s.priv = .supervisor →
    (∀ (i : Instr) (port : Word),
      (i = .prdR rd rs ∧ port = s.reg rs) ∨ (i = .prdI rd imm ∧ port = s.ui ++ imm) →
      ∃ t, exec i s = .next t ∧
        (∀ v rest, s.portInputs = v :: rest → t.reg rd = v ∧ t.portInputs = rest) ∧
        t.portTrace = s.portTrace ++ [.read port (t.reg rd)] ∧
        (∀ r, r ≠ rd → t.reg r = s.reg r) ∧
        { t with regs := s.regs, portInputs := s.portInputs, portTrace := s.portTrace, draws := s.draws,
                 ui := s.ui, uiValid := s.uiValid } = s ∧ PrefixCleared t) ∧
    exec (.pwrR rd rs) s = .next { s with
      portTrace := s.portTrace ++ [.write (s.reg rd) (s.reg rs)], ui := 0, uiValid := false } ∧
    exec (.pwrI imm rs) s = .next { s with
      portTrace := s.portTrace ++ [.write (s.ui ++ imm) (s.reg rs)], ui := 0, uiValid := false }

/-- XRD gives R[d] the external register: IP is the next address, number 1 is CF, FL has zeros above its four
flags (R224, R226, R41). Those zeros and the cleared prefix are the spec's own decisions D5, D39. -/
def Obligations.XrdReadsExternalRegister : Prop :=
  (∀ rd x, encode (.xrd rd x) &&& 0xF81F#16 = 0x000A#16 ∧ (encode (.xrd rd x)).extractLsb' 5 3 = rd ∧
    (encode (.xrd rd x)).extractLsb' 8 3 = x.toBits) ∧
  ∀ (s : State) (rd : RegNum) (x : ExtReg), ∃ t, exec (.xrd rd x) s = .next t ∧
    (match x with
      | .ip => t.reg rd = s.ip
      | .cfui => t.reg rd = s.cfg.cf
      | .lr => t.reg rd = s.lr
      | .sp => t.reg rd = s.sp
      | .ofs => t.reg rd = s.ofs
      | .fl => (t.reg rd).toNat = 8 * s.fl.s.toNat + 4 * s.fl.o.toNat + 2 * s.fl.c.toNat + s.fl.z.toNat
      | .f1 => t.reg rd = s.f1
      | .f2 => t.reg rd = s.f2) ∧
    OnlyReg rd s t ∧ PrefixCleared t

/-- XWR, both forms (R225, R227). Number 1 sets UI and keeps it; every other number is written and the prefix
cleared; of F1 and F2 the defined bits are stored, and the whole value where no reserved bit changes. FL bits
15:4 and the reserved bits are the spec's own decisions D5, D34. -/
def Obligations.XwrWritesExternalRegister : Prop :=
  (∀ x rs, encode (.xwrR x rs) &&& 0xF81F#16 = 0x000B#16) ∧
  (∀ x imm, encode (.xwrI x imm) &&& 0xF800#16 = 0x5800#16) ∧
  ∀ (s : State) (x : ExtReg) (i : Instr) (v : Word),
    (∃ rs, i = .xwrR x rs ∧ v = s.reg rs) ∨ (∃ imm, i = .xwrI x imm ∧ v = s.ui ++ imm) →
    ∃ t, exec i s = .next t ∧
      match x with
      | .ip => t = { s with ip := v, ui := 0, uiValid := false }
      | .cfui => t = { s with ui := v.setWidth 8, uiValid := true }
      | .lr => t = { s with lr := v, ui := 0, uiValid := false }
      | .sp => t = { s with sp := v, ui := 0, uiValid := false }
      | .ofs => t = { s with ofs := v, ui := 0, uiValid := false }
      | .fl => t.fl.toWord = v &&& 0x000F#16 ∧ OnlyFlags s t ∧ t.draws = s.draws ∧ PrefixCleared t
      | .f1 => t.f1 &&& 0x0003#16 = v &&& 0x0003#16 ∧
          (v &&& 0xFFFC#16 = s.f1 &&& 0xFFFC#16 → t.f1 = v) ∧
          { t with f1 := s.f1, draws := s.draws, ui := s.ui, uiValid := s.uiValid } = s ∧ PrefixCleared t
      | .f2 => t.f2 &&& 0x0001#16 = v &&& 0x0001#16 ∧
          (v &&& 0xFFFE#16 = s.f2 &&& 0xFFFE#16 → t.f2 = v) ∧
          { t with f2 := s.f2, draws := s.draws, ui := s.ui, uiValid := s.uiValid } = s ∧ PrefixCleared t

/-! ## Memory and stack (43_memory_stack.md, 20_memory.md) -/

/-- MRD and MRO (R240, R242), both forms, where the address translates: R[d] is the word there, and nothing
else changes but what the translation leaves: an entry cached again, a free value. The wrap of OF + operand is the
spec's own decision D2. -/
def Obligations.LoadsReadTheWord : Prop :=
  ∀ (s : State) (rd rs : RegNum) (imm : BitVec 8) (i : Instr) (va : Word) (pa : Nat),
    (i = .mrdR rd rs ∧ va = s.reg rs) ∨ (i = .mrdI rd imm ∧ va = s.ui ++ imm) ∨
      (i = .mroR rd rs ∧ va = s.ofs + s.reg rs) ∨ (i = .mroI rd imm ∧ va = s.ofs + (s.ui ++ imm)) →
    (s.translate va .read).1 = .ok pa →
    ∃ t, exec i s = .next t ∧ t.reg rd = readWord s.mem pa ∧ (∀ r, r ≠ rd → t.reg r = s.reg r) ∧
      TranslationLeft va .read s t ∧
      { t with regs := s.regs, ptCache := s.ptCache, draws := s.draws, ui := s.ui, uiValid := s.uiValid } = s ∧
      PrefixCleared t

/-- MWR and MWO (R241, R243), both forms, where the address translates: the word is stored there, every byte
outside it reads as before, no register changes, and of the cached table only what the translation leaves. The wrap
of OF + operand is the spec's own decision D2. -/
def Obligations.StoresWriteTheWord : Prop :=
  ∀ (s : State) (rd rs : RegNum) (imm : BitVec 8) (i : Instr) (va : Word) (pa : Nat),
    (i = .mwrR rd rs ∧ va = s.reg rd) ∨ (i = .mwrI imm rs ∧ va = s.ui ++ imm) ∨
      (i = .mwoR rd rs ∧ va = s.ofs + s.reg rd) ∨ (i = .mwoI imm rs ∧ va = s.ofs + (s.ui ++ imm)) →
    (s.translate va .write).1 = .ok pa →
    ∃ t, exec i s = .next t ∧ readWord t.mem pa = s.reg rs ∧
      (∀ a, a ≠ 2 * pa → a ≠ 2 * pa + 1 → readByte t.mem a = readByte s.mem a) ∧
      (∀ p, p ≠ pa → cellGet t.stale p = cellGet s.stale p) ∧ TranslationLeft va .write s t ∧
      { t with mem := s.mem, stale := s.stale, ptCache := s.ptCache, draws := s.draws, ui := s.ui,
               uiValid := s.uiValid } = s ∧ PrefixCleared t

/-- POP takes the word at SP, then SP moves up by one, modulo 2^16 (R248, the spec's own decision D2). -/
def Obligations.PopReadsThenRaisesSp : Prop :=
  (∀ rd ign, encode (.pop rd ign) &&& 0xFF00#16 = 0xA800#16) ∧
  ∀ (s : State) (rd : RegNum) (ign : BitVec 5) (pa : Nat),
    (s.translate s.sp .read).1 = .ok pa →
    ∃ t, exec (.pop rd ign) s = .next t ∧ t.reg rd = readWord s.mem pa ∧
      t.sp.toNat = (s.sp.toNat + 1) % 65536 ∧ (∀ r, r ≠ rd → t.reg r = s.reg r) ∧
      TranslationLeft s.sp .read s t ∧
      { t with regs := s.regs, sp := s.sp, ptCache := s.ptCache, draws := s.draws, ui := s.ui,
               uiValid := s.uiValid } = s ∧ PrefixCleared t

/-- PSH stores at SP - 1, modulo 2^16, and SP becomes that address (R249, the spec's own decision D2). -/
def Obligations.PshLowersSpThenWrites : Prop :=
  (∀ rs ign, encode (.psh rs ign) &&& 0xFF00#16 = 0xA900#16) ∧
  ∀ (s : State) (rs : RegNum) (ign : BitVec 5) (pa : Nat),
    (s.translate (s.sp - 1) .write).1 = .ok pa →
    ∃ t, exec (.psh rs ign) s = .next t ∧ readWord t.mem pa = s.reg rs ∧
      t.sp.toNat = (s.sp.toNat + 65535) % 65536 ∧
      (∀ a, a ≠ 2 * pa → a ≠ 2 * pa + 1 → readByte t.mem a = readByte s.mem a) ∧
      (∀ p, p ≠ pa → cellGet t.stale p = cellGet s.stale p) ∧ TranslationLeft (s.sp - 1) .write s t ∧
      { t with mem := s.mem, stale := s.stale, sp := s.sp, ptCache := s.ptCache, draws := s.draws, ui := s.ui,
               uiValid := s.uiValid } = s ∧ PrefixCleared t

/-- A page fault records the instruction, or its prefix where a UI-extended immediate gave the address,
or the address that could not be fetched; the faulting instruction has changed nothing (R331, R101). The table
of R331 is the spec's own inference (log 26). -/
def Obligations.PageFaultIsRestartable : Prop :=
  (∀ (i : Instr) (s : State) (va : Word) (kind : AccessKind) (prefixed : Bool),
    dataAccessOf s i = some (va, kind, prefixed) → (s.translate va kind).1 = .pageFault →
    s.intEnable = true →
    ∃ t u, exec i s = .next t ∧ AccessedOnly va kind s u ∧
      EnteredFrom u t ⟨1, if prefixed = true then s.ip - 2 else s.ip - 1, va, 0, 0⟩) ∧
  (∀ s : State, s.run = .running → s.arrivals = [] → s.pendingTimer = false → s.pendingIo = [] →
    (s.translate s.ip .execute).1 = .pageFault → s.intEnable = true →
    ∃ t u, step s = .next t ∧ FetchedOnly s.ip s u ∧
      EnteredFrom u t ⟨1, s.ip, s.ip, 0, 0⟩)

/-- A permission violation records the address after the instruction, the virtual address and the type
of access; the access is not made and the instruction has no effect (R333, the spec's own decision D23). It
needs level 0 and paging. -/
def Obligations.PermissionViolationIsRecorded : Prop :=
  (∀ (i : Instr) (s : State) (va : Word) (kind : AccessKind) (prefixed : Bool),
    dataAccessOf s i = some (va, kind, prefixed) → (s.translate va kind).1 = .violation →
    s.intEnable = true →
    ∃ t u, exec i s = .next t ∧ AccessedOnly va kind s u ∧
      EnteredFrom u t ⟨3, s.ip, va, if kind = .read then 0 else 1, 0⟩) ∧
  (∀ s : State, s.run = .running → s.arrivals = [] → s.pendingTimer = false → s.pendingIo = [] →
    (s.translate s.ip .execute).1 = .violation → s.intEnable = true →
    ∃ t u, step s = .next t ∧ FetchedOnly s.ip s u ∧
      EnteredFrom u t ⟨3, s.ip + 1, s.ip, 2, 0⟩) ∧
  (∀ (s : State) (va : Word) (kind : AccessKind), (s.translate va kind).1 = .violation →
    s.priv = .user ∧ s.paging = true)

/-- Unpaged, every virtual address is the physical address (R103, the spec's own inference). -/
def Obligations.UnpagedAddressesAreUnchanged : Prop :=
  ∀ (s : State) (va : Word) (kind : AccessKind), s.paging = false →
    s.translate va kind = (.ok va.toNat, s)

/-- Translation (R100 with R96 to R98) through the entry in force: presence at both levels, permission at level
0 alone, frames beyond memory refused, and the physical address the frame times 2048 plus the offset. What it
leaves is what finding the entry leaves; while the table is unspecified it is refused and leaves nothing. The page
size, the places of the bits and the refusal of a frame are the spec's own decisions D14, D15, D33, the order of
the checks its inference; the refusal of an unspecified table follows U14 (log 19, 21). -/
def Obligations.PagedTranslation : Prop :=
  (∀ (s : State) (va : Word) (kind : AccessKind), s.paging = true → s.ptKnown = false →
    s.translate va kind = (.refused .tableUnspecified, s)) ∧
  ∀ (s : State) (va : Word) (kind : AccessKind), s.paging = true → s.ptKnown = true →
    let e := (s.effectivePte (pageOf va)).1
    let allowed := match kind with
      | .read => e.getLsbD 14
      | .write => e.getLsbD 13
      | .execute => e.getLsbD 12
    (pageOf va).toNat = va.toNat / 2048 ∧ (s.translate va kind).2 = (s.effectivePte (pageOf va)).2 ∧
    (e.toNat < 32768 → (s.translate va kind).1 = .pageFault) ∧
    (32768 ≤ e.toNat → s.priv = .user → allowed = false → (s.translate va kind).1 = .violation) ∧
    (32768 ≤ e.toNat → (s.priv = .user → allowed = true) →
      (s.cfg.memKiw.toNat / 2 ≤ e.toNat % 4096 →
        (s.translate va kind).1 = .refused (.frameBeyondMemory (e.toNat % 4096))) ∧
      (e.toNat % 4096 < s.cfg.memKiw.toNat / 2 →
        (s.translate va kind).1 = .ok (e.toNat % 4096 * 2048 + va.toNat % 2048)))

/-- An entry (R107) cached as not present is read again and cached; a cached present entry equal to memory is
used; one that differs from memory is used or not, as a free bit decides. The choice is
the spec's own decision D26 (log 22, 30). -/
def Obligations.EntryInForce : Prop :=
  ∀ (s : State) (p : BitVec 5),
    let c := s.ptCache[p.toNat]
    let m := readWord s.mem (s.ptBase.toNat + p.toNat)
    let r := s.effectivePte p
    (c.getLsbD 15 = false → r = (m, { s with ptCache := s.ptCache.set p.toNat m })) ∧
    (c.getLsbD 15 = true → c = m → r = (c, s)) ∧
    (c.getLsbD 15 = true → c ≠ m →
      r = (if Config.freeBit s.draws = true then c else m, { s with draws := s.draws + 1 }))

/-- A load returns the word of the most recent store to the same physical word, and a store leaves every
other word alone (R112, the spec's own decision D25). -/
def Obligations.LoadSeesMostRecentStore : Prop :=
  ∀ (s : State) (pa : Nat) (v : Word), readWord (s.store pa v).mem pa = v ∧
    ∀ pb, pb ≠ pa → readWord (s.store pa v).mem pb = readWord s.mem pb

/-- What a fetch sees of stores (R116, the spec's own decision D38; log 23). With F2.P = 1 it sees memory, and a
store leaves no older word on record. Where none is on record a fetch sees memory, whatever F2 is, and none comes on
record but by a store to that very word with F2.P = 0: so a store made with F2.P = 1 is seen by every later fetch
until then. A store made with F2.P = 0 puts the word it replaces on record, and a fetch with F2.P = 0 gives any of
the words on record or the word in memory, as a free value decides, and keeps them. -/
def Obligations.FetchOfStoredWords : Prop :=
  (∀ (s : State) (pa : Nat), s.f2.getLsbD 0 = true → (s.fetchAt pa).1 = readWord s.mem pa) ∧
  (∀ (s : State) (pa : Nat) (v : Word), s.f2.getLsbD 0 = true → cellGet (s.store pa v).stale pa = none) ∧
  (∀ (s : State) (pa : Nat), cellGet s.stale pa = none → (s.fetchAt pa).1 = readWord s.mem pa) ∧
  (∀ (s t : State) (pa : Nat), step s = .next t → cellGet s.stale pa = none →
    cellGet t.stale pa = none ∨
      (s.f2.getLsbD 0 = false ∧ cellGet t.stale pa = some [readWord s.mem pa] ∧
        ∃ i u va prefixed, step s = exec i u ∧ u.mem = s.mem ∧
          dataAccessOf u i = some (va, .write, prefixed) ∧ (u.translate va .write).1 = .ok pa)) ∧
  (∀ (s : State) (pa : Nat) (v : Word), s.f2.getLsbD 0 = false →
    ∃ olds, cellGet (s.store pa v).stale pa = some olds ∧
      ∀ w, w ∈ olds ↔ w = readWord s.mem pa ∨ ∃ before, cellGet s.stale pa = some before ∧ w ∈ before) ∧
  (∀ (s : State) (pa : Nat) (olds : List Word), s.f2.getLsbD 0 = false → cellGet s.stale pa = some olds →
    s.fetchAt pa =
      (olds.getD (Config.freeWord s.draws).toNat (readWord s.mem pa), { s with draws := s.draws + 1 }))

/-! ## System instructions (40_system.md) -/

/-- INT (R180). Ids 64 to 255 enter with R0, R1, R2 at either level; ids 0 to 63 at level 1 enter with undefined
words, id 1 recording its own address; at level 0 they are privilege violations; with interrupts disabled the
machine stops. The record of R0, R1, R2, ids 7 to 63 and the stop are the spec's own decisions D35, D36, D21. -/
def Obligations.IntEntersInterrupt : Prop :=
  (∀ imm, encode (.int imm) &&& 0xFF00#16 = 0x0800#16) ∧
  ∀ (s : State) (imm : BitVec 8),
    (64 ≤ imm.toNat → s.intEnable = true → ∃ t, exec (.int imm) s = .next t ∧
      EnteredFrom s.clearUi t ⟨imm, s.ip, s.reg 0, s.reg 1, s.reg 2⟩) ∧
    (imm.toNat < 64 → s.priv = .supervisor → s.intEnable = true →
      ∃ t u w0 w1 w2, exec (.int imm) s = .next t ∧
        EnteredFrom u t ⟨imm, if imm = 1 then s.ip - 1 else s.ip, w0, w1, w2⟩ ∧
        PrefixCleared u ∧ { u with draws := s.draws, ui := s.ui, uiValid := s.uiValid } = s) ∧
    (imm.toNat < 64 → s.priv = .user → s.intEnable = true → ∃ t, exec (.int imm) s = .next t ∧
      EnteredFrom s.clearUi t ⟨2, s.ip, encode (.int imm), 1, 0⟩) ∧
    (s.intEnable = false → exec (.int imm) s = .fault .doubleFault)

/-- IRT at level 1, whatever its ignored field, and the violation at level 0 (R181; the saved prefix by the
spec's own decision D22). -/
def Obligations.IrtRestores : Prop :=
  (∀ ign, encode (.irt ign) &&& 0xFF00#16 = 0x0900#16) ∧
  ∀ (s : State) (ign : BitVec 8),
    (s.priv = .supervisor → exec (.irt ign) s = .next { s with
      priv := s.savedPriv, ui := s.savedUi, uiValid := s.savedUiValid, ip := s.pxIp, intEnable := true }) ∧
    (s.priv = .user → s.intEnable = true → ∃ t, exec (.irt ign) s = .next t ∧
      EnteredFrom s.clearUi t ⟨2, s.ip, encode (.irt ign), 1, 0⟩)

/-- HLT enables interrupts and waits; HCF disables them and stops for good (R182, R183). The end of a run is the
spec's own decision D30 (log 31). -/
def Obligations.HltAndHcfHalt : Prop :=
  (∀ ign, encode (.hlt ign) &&& 0xFF00#16 = 0x0A00#16) ∧
  (∀ ign, encode (.hcf ign) &&& 0xFF00#16 = 0x0B00#16) ∧
  (∀ (s : State) (ign : BitVec 8), s.priv = .supervisor →
    exec (.hlt ign) s = .next { s with intEnable := true, run := .halted, ui := 0, uiValid := false } ∧
    exec (.hcf ign) s = .next { s with intEnable := false, run := .dead, ui := 0, uiValid := false }) ∧
  (∀ s : State, s.run = .dead → ∀ n, Sys2Proof.core.run n s = .next s) ∧
  (∀ s : State, s.run = .halted → s.arrivals = [] → s.pendingTimer = false → s.pendingIo = [] →
    ∀ n, Sys2Proof.core.run n s = .next s)

/-- PXR at level 1, for every number (R184). What PX[0] and PX[31] read is the spec's own decisions D16, D20. -/
def Obligations.PxrReadsRegister : Prop :=
  (∀ rd n, encode (.pxr rd n) &&& 0xFF00#16 = 0x0E00#16) ∧
  ∀ (s : State) (rd : RegNum) (n : BitVec 5), s.priv = .supervisor →
    let reads (v : Word) : Prop :=
      ∃ t, exec (.pxr rd n) s = .next t ∧ t.reg rd = v ∧ OnlyReg rd s t ∧ PrefixCleared t
    (n = 0 → s.pidKnown = true → reads s.pid) ∧ (n = 1 → reads s.ptAddr) ∧ (n = 2 → reads s.cfg.memKiw) ∧
    (n = 3 → reads s.cfg.px3) ∧ (n = 10 → reads s.pxId) ∧ (n = 11 → reads s.pxIp) ∧
    (n = 12 → reads s.pxInfo0) ∧ (n = 13 → reads s.pxInfo1) ∧ (n = 14 → reads s.pxInfo2) ∧
    (n = 31 ∨ (n = 0 ∧ s.pidKnown = false) → ∃ t, exec (.pxr rd n) s = .next t ∧
      OnlyRegAndFlags rd s t ∧ t.fl = s.fl ∧ PrefixCleared t) ∧
    ((4 ≤ n.toNat ∧ n.toNat ≤ 9) ∨ (15 ≤ n.toNat ∧ n.toNat ≤ 30) →
      exec (.pxr rd n) s = .refused (.reservedPx n))

/-- PXW at level 1, for every number but 31 (R185). The effects on PX[0], PX[2], PX[3] are the spec's own
decisions D16, D20. -/
def Obligations.PxwWritesRegister : Prop :=
  (∀ n rs, encode (.pxw n rs) &&& 0xFF00#16 = 0x0F00#16) ∧
  ∀ (s : State) (n : BitVec 5) (rs : RegNum), s.priv = .supervisor →
    let u : State := { s with ui := 0, uiValid := false }
    (n = 0 → exec (.pxw n rs) s = .next { u with pidKnown := false }) ∧
    (n = 1 → exec (.pxw n rs) s = .next { u with ptAddr := s.reg rs }) ∧
    (n = 2 ∨ n = 3 → exec (.pxw n rs) s = .next u) ∧
    (n = 10 → exec (.pxw n rs) s = .next { u with pxId := s.reg rs }) ∧
    (n = 11 → exec (.pxw n rs) s = .next { u with pxIp := s.reg rs }) ∧
    (n = 12 → exec (.pxw n rs) s = .next { u with pxInfo0 := s.reg rs }) ∧
    (n = 13 → exec (.pxw n rs) s = .next { u with pxInfo1 := s.reg rs }) ∧
    (n = 14 → exec (.pxw n rs) s = .next { u with pxInfo2 := s.reg rs }) ∧
    ((4 ≤ n.toNat ∧ n.toNat ≤ 9) ∨ (15 ≤ n.toNat ∧ n.toNat ≤ 30) →
      exec (.pxw n rs) s = .refused (.reservedPx n))

/-- A write to PX[31] does the action of each set bit, all before the next fetch (R186). That bits 15:6 and a table
not wholly in frame 0 are refused, and that the table is unspecified after a PID reload without a flush, is the
model's choice where R56, R105 and R109 define nothing (U9, U13, U14; log 16, 20, 21). The order of the actions,
that either of bits 0 and 3 turns paging on and where the IHT is read are the spec's own decisions D19, D17, D18. -/
def Obligations.UpdateWritePerformsActions : Prop :=
  ∀ (s : State) (rs : RegNum), s.priv = .supervisor →
    let v := s.reg rs
    (64 ≤ v.toNat → exec (.pxw 31 rs) s = .refused (.reservedUpdateBits v)) ∧
    (v.toNat < 64 → v.getLsbD 3 = true → 0x07FF < s.ptAddr.toNat + 31 →
      exec (.pxw 31 rs) s = .refused (.tableOutsideFrame0 s.ptAddr)) ∧
    (v.toNat < 64 → (v.getLsbD 3 = true → s.ptAddr.toNat + 31 ≤ 0x07FF) →
      ∃ t, exec (.pxw 31 rs) s = .next t ∧
        (∀ n : Fin 256, t.iht[n] = if v.getLsbD 1 = true then readWord s.mem (0x0100 + n.val) else s.iht[n]) ∧
        t.pid = (if v.getLsbD 0 = true then readWord s.mem 0x00FF else s.pid) ∧
        t.pidKnown = (v.getLsbD 0 || s.pidKnown) ∧
        t.paging = (v.getLsbD 0 || v.getLsbD 3 || s.paging) ∧
        t.ptBase = (if v.getLsbD 3 = true then s.ptAddr else s.ptBase) ∧
        (∀ p : Fin 32, t.ptCache[p] =
          if v.getLsbD 3 = true then readWord s.mem (s.ptAddr.toNat + p.val) else s.ptCache[p]) ∧
        t.ptKnown = (v.getLsbD 3 || (!v.getLsbD 0 && s.ptKnown)) ∧
        t.intEnable = (!v.getLsbD 5 && (v.getLsbD 4 || s.intEnable)) ∧
        t.priv = (if v.getLsbD 2 = true then .user else .supervisor) ∧
        PrefixCleared t ∧
        { t with
          iht := s.iht, pid := s.pid, pidKnown := s.pidKnown, paging := s.paging, ptBase := s.ptBase,
          ptCache := s.ptCache, ptKnown := s.ptKnown, intEnable := s.intEnable, priv := s.priv, ui := s.ui,
          uiValid := s.uiValid } = s)

/-- A programmable slot enters interrupt 6 where CF.P = 0 and has no meaning where CF.P = 1 (R187, the spec's own
decision D31). -/
def Obligations.ProgrammableSlots : Prop :=
  (∀ slot body, encode (.prog slot body) &&& 0xF000#16 = 0x3000#16) ∧
  ∀ (s : State) (slot : BitVec 4) (body : BitVec 8),
    (s.cfg.cf.getLsbD 15 = false → s.intEnable = true → ∃ t, exec (.prog slot body) s = .next t ∧
      EnteredFrom s.clearUi t ⟨6, s.ip, encode (.prog slot body), 0, 0⟩) ∧
    (s.cfg.cf.getLsbD 15 = true → exec (.prog slot body) s = .refused (.programmableUndefined slot))

/-! ## Interrupts, privilege and the step (60_exceptions.md, 70_reset_and_hazards.md) -/

/-- At level 0 exactly the privileged instructions, and INT below 64, enter interrupt 2 with the word of
the instruction, and they have no other effect (R332). The order of the checks is the spec's own decision D22. -/
def Obligations.PrivilegeViolations : Prop :=
  ∀ (i : Instr) (s : State), s.priv = .user → s.intEnable = true →
    let cause := alwaysPrivileged i = true ∨ ∃ imm, i = .int imm ∧ imm.toNat < 64
    (cause → ∃ t, exec i s = .next t ∧ EnteredFrom s.clearUi t ⟨2, s.ip, encode i, 1, 0⟩) ∧
    ((∃ t, exec i s = .next t ∧ t.priv = .supervisor ∧ t.pxId = 2) → cause)

/-- IRT undoes an entry: the level, the prefix and IP come back, whatever the record (R321; the prefix
cleared at entry is the spec's own decision D37). -/
def Obligations.IrtUndoesEntry : Prop :=
  ∀ (s : State) (r : IntRecord) (ign : BitVec 8), s.intEnable = true →
    ∃ t u, raise r s = .next t ∧ exec (.irt ign) t = .next u ∧
      u.priv = s.priv ∧ u.ui = s.ui ∧ u.uiValid = s.uiValid ∧ u.ip = r.ip ∧ u.intEnable = true ∧
      u.regs = s.regs ∧ u.fl = s.fl ∧ u.lr = s.lr ∧ u.sp = s.sp ∧ u.ofs = s.ofs ∧ u.f1 = s.f1 ∧
      u.f2 = s.f2 ∧ u.mem = s.mem

/-- The level is raised by an interrupt entry alone, and lowered by IRT and PX[31] alone, by exec and by a
whole step alike: a wait or an entry lowers nothing (R346, R347). -/
def Obligations.PrivilegeChanges : Prop :=
  (∀ s t : State, step s = .next t → s.priv = .user → t.priv = .supervisor →
    s.intEnable = true ∧ t.intEnable = false ∧ t.savedPriv = .user ∧ t.run = .running ∧
      t.ui = 0 ∧ t.uiValid = false ∧
      ∃ id : BitVec 8, t.pxId = id.setWidth 16 ∧ t.ip = s.iht[id.toNat]) ∧
  (∀ (i : Instr) (s t : State), exec i s = .next t → s.priv = .supervisor → t.priv = .user →
    (∃ ign, i = .irt ign ∧ s.savedPriv = .user) ∨ (∃ rs, i = .pxw 31 rs ∧ (s.reg rs).getLsbD 2 = true)) ∧
  (∀ s t : State, step s = .next t → s.priv = .supervisor → t.priv = .user →
    ∃ i u, step s = exec i u ∧
      { u with
        ip := s.ip, ptCache := s.ptCache, draws := s.draws, stale := s.stale, pendingTimer := s.pendingTimer,
        pendingIo := s.pendingIo, arrivals := s.arrivals } = s ∧
      ((∃ ign, i = .irt ign ∧ s.savedPriv = .user) ∨ (∃ rs, i = .pxw 31 rs ∧ (s.reg rs).getLsbD 2 = true)))

/-- A step at level 0 changes no handler table, no page table register, no PID, no port, no control of paging and
no constant of the machine; and if it stays at level 0 it changes neither the interrupt enable nor any interrupt
record (R345). The cached entries are not among these: an access may cache an entry again (R107). -/
def Obligations.UserStepIsIsolated : Prop :=
  ∀ s t : State, s.priv = .user → step s = .next t →
    (t.iht = s.iht ∧ t.ptAddr = s.ptAddr ∧ t.ptBase = s.ptBase ∧ t.ptKnown = s.ptKnown ∧
      t.paging = s.paging ∧ t.pid = s.pid ∧ t.pidKnown = s.pidKnown ∧ t.portTrace = s.portTrace ∧
      t.portInputs = s.portInputs ∧ t.cfg = s.cfg) ∧
    (t.priv = .user →
      t.intEnable = s.intEnable ∧ t.run = s.run ∧ t.pxId = s.pxId ∧ t.pxIp = s.pxIp ∧
        t.pxInfo0 = s.pxInfo0 ∧ t.pxInfo1 = s.pxInfo1 ∧ t.pxInfo2 = s.pxInfo2 ∧
        t.savedPriv = s.savedPriv ∧ t.savedUi = s.savedUi ∧ t.savedUiValid = s.savedUiValid)

/-- Every step keeps the invariant, from every state that meets it. -/
def Obligations.StepKeepsInvariant : Prop := ∀ s t : State, s.Inv → step s = .next t → t.Inv

/-- The reset state meets the invariant. It rests on the model's choice of memory, of `saved_ui` and of the
constants (log 2, 3, 5). -/
def Obligations.ResetMeetsInvariant : Prop := State.reset.Inv

/-- What the spec gives of the reset state (R370, R75). UI and `ui_valid` are the spec's own decision D24. -/
def Obligations.ResetState : Prop :=
  State.reset.ip = 0 ∧ State.reset.priv = .supervisor ∧ State.reset.paging = false ∧
    State.reset.run = .running ∧ State.reset.ui = 0 ∧ State.reset.uiValid = false

/-- A step runs the instruction that the fetched word decodes to, with IP at the next address. The
first clause is for every state, the second for a machine with nothing outside and no paging (R310, R30; the
order of events is the spec's own decision D22). -/
def Obligations.StepRunsDecodedInstruction : Prop :=
  (∀ (s : State) (pa : Nat) (i : Instr), s.run = .running → s.poll.takeExternal = none →
    (s.poll.translate s.poll.ip .execute).1 = .ok pa →
    decode ((s.poll.translate s.poll.ip .execute).2.fetchAt pa).1 = .ok i →
    step s = exec i (((s.poll.translate s.poll.ip .execute).2.fetchAt pa).2.setIp (s.poll.ip + 1))) ∧
  (∀ (s : State) (i : Instr), Quiet s → decode (readWord s.mem s.ip.toNat) = .ok i →
    ∃ u, step s = exec i u ∧ u.ip = s.ip + 1 ∧ { u with ip := s.ip, stale := s.stale } = s)

/-- The word that withFetchWord plants is the one the next step runs (log 29). -/
def Obligations.PlantedWordRuns : Prop :=
  ∀ (s : State) (i : Instr), s.run = .running → s.arrivals = [] → s.pendingTimer = false →
    s.pendingIo = [] → s.paging = false →
    ∃ u, step (s.withFetchWord 16 (encode i).toNat) = exec i u ∧ u.ip = s.ip + 1 ∧
      readWord u.mem s.ip.toNat = encode i ∧
      (∀ pa, pa ≠ s.ip.toNat → readWord u.mem pa = readWord s.mem pa) ∧
      { u with ip := s.ip, mem := s.mem, stale := s.stale } = s

/-- With interrupts enabled a pending timer request is taken first, else the oldest I/O
request, before the next instruction and also out of a halt; with interrupts disabled all stay pending. The
queue is the spec's own decision D29, the moment its decision D22 (log 9, 10). -/
def Obligations.ExternalInterruptsAreTakenInOrder : Prop :=
  ∀ s : State, s.run ≠ .dead → s.arrivals = [] →
    (s.intEnable = true → s.pendingTimer = true → ∃ t, step s = .next t ∧
      EnteredFrom { s with pendingTimer := false } t ⟨0, s.ip, 0, 0, 0⟩) ∧
    (∀ q rest, s.intEnable = true → s.pendingTimer = false → s.pendingIo = q :: rest →
      ∃ t, step s = .next t ∧ EnteredFrom { s with pendingIo := rest } t
        ⟨5, s.ip, q.port, if q.action = .readFromPort then 0 else 1, 0⟩) ∧
    (∀ t, s.intEnable = false → step s = .next t →
      t.pendingTimer = s.pendingTimer ∧ t.pendingIo = s.pendingIo)

/-- An internal interrupt with interrupts disabled stops the machine, and nothing else does (R322, the spec's own
decision D21; log 12). -/
def Obligations.DoubleFaultIsTheOnlyFault : Prop :=
  (∀ (r : IntRecord) (s : State), s.intEnable = false → raise r s = .fault .doubleFault) ∧
  (∀ (s : State) (f : Fault), step s = .fault f → f = .doubleFault ∧ s.intEnable = false)

/-- Every refusal of an instruction has one of the spec's causes, each with its own name (U2, U8, U9, U12, U13,
U14): a data access is refused for an unspecified table or a frame beyond memory alone. -/
def Obligations.RefusalsAreTheSpecs : Prop :=
  ∀ (i : Instr) (s : State) (r : Refusal), exec i s = .refused r →
    (∃ slot body, i = .prog slot body ∧ s.cfg.cf.getLsbD 15 = true ∧ r = .programmableUndefined slot) ∨
    (∃ n, ((∃ rd, i = .pxr rd n) ∨ (∃ rs, i = .pxw n rs)) ∧ s.priv = .supervisor ∧
      ((4 ≤ n.toNat ∧ n.toNat ≤ 9) ∨ (15 ≤ n.toNat ∧ n.toNat ≤ 30)) ∧ r = .reservedPx n) ∨
    (∃ rs, i = .pxw 31 rs ∧ s.priv = .supervisor ∧
      ((64 ≤ (s.reg rs).toNat ∧ r = .reservedUpdateBits (s.reg rs)) ∨
        ((s.reg rs).getLsbD 3 = true ∧ 0x07FF < s.ptAddr.toNat + 31 ∧ r = .tableOutsideFrame0 s.ptAddr))) ∨
    (∃ va kind p, dataAccessOf s i = some (va, kind, p) ∧ s.paging = true ∧
      ((s.ptKnown = false ∧ r = .tableUnspecified) ∨
        (s.ptKnown = true ∧ 32768 ≤ (s.effectivePte (pageOf va)).1.toNat ∧
          s.cfg.memKiw.toNat / 2 ≤ (s.effectivePte (pageOf va)).1.toNat % 4096 ∧
          r = .frameBeyondMemory ((s.effectivePte (pageOf va)).1.toNat % 4096))))

/-- After an instruction the prefix is valid exactly if it was a write to UI, or an IRT that
restored a valid prefix (R35 to R37, the spec's own inference and decisions D4, D37). -/
def Obligations.PrefixValidOnlyAfterUiWrite : Prop :=
  ∀ (i : Instr) (s t : State), exec i s = .next t →
    (t.uiValid = true ↔ (∃ rs, i = .xwrR .cfui rs) ∨ (∃ imm, i = .xwrI .cfui imm) ∨
      (∃ ign, i = .irt ign ∧ s.priv = .supervisor ∧ s.savedUiValid = true))

/-- No step turns paging off or changes a constant of the machine (R62, R4). -/
def Obligations.PagingStaysOn : Prop :=
  ∀ s t : State, step s = .next t → (s.paging = true → t.paging = true) ∧ t.cfg = s.cfg

/-- The machine given an image runs it from its first word: memory holds the image from address 0 and is otherwise
as after reset, nothing else differs from the reset state, the invariant holds, and the first step runs the
instruction of word 0 (R372, R371, R103). Memory and registers after reset are the model's choice (log 2, 3, 5, 9,
29). -/
def Obligations.BootRunsImage : Prop :=
  ∀ image : List Word, image.length ≤ 65536 →
    (∀ n w, image[n]? = some w → readWord (State.boot image).mem n = w) ∧
    (∀ n, image.length ≤ n → readWord (State.boot image).mem n = readWord State.reset.mem n) ∧
    { State.boot image with mem := [] } = State.reset ∧ (State.boot image).Inv ∧
    (∀ w rest i, image = w :: rest → decode w = .ok i →
      step (State.boot image) = exec i ((State.boot image).setIp 1))
end

