-- ==== Sys2Proof/Laws/Encoding.lean ====
section
/-! SUPPORT. The fields of each format, read back from its encoder (30_encoding.md R135-R142), and the bits a
row of the opcode table fixes. -/

namespace Sys2Proof

/-! ### Named fields -/

/-- A condition survives its field. -/
theorem Leg.ofBits_toBits (l : Leg) : Leg.ofBits l.toBits = l := by cases l <;> rfl

/-- A condition field survives its name. -/
theorem Leg.toBits_ofBits (b : BitVec 3) : (Leg.ofBits b).toBits = b := by revert b; decide

/-- An external register survives its number. -/
theorem ExtReg.ofBits_toBits (x : ExtReg) : ExtReg.ofBits x.toBits = x := by cases x <;> rfl

/-- An external register number survives its name. -/
theorem ExtReg.toBits_ofBits (b : BitVec 3) : (ExtReg.ofBits b).toBits = b := by revert b; decide

/-! ### Formats -/

/-- The bits the rows of this format fix. -/
theorem encRegReg_fixed (op : BitVec 5) (s d : RegNum) :
    encRegReg op s d &&& 0xF81F#16 = op.setWidth 16 := by
  apply BitVec.eq_of_getLsbD_eq
  intro i hi
  unfold encRegReg
  rw [BitVec.getLsbD_and]
  simp only [BitVec.getLsbD_append, BitVec.getLsbD_extractLsb', BitVec.getLsbD_shiftLeft, BitVec.getLsbD_setWidth]
  interval_cases i <;> simp [-BitVec.getLsbD_eq_getElem]

/-- Field `high` of the format, read back. -/
theorem encRegReg_high (op : BitVec 5) (s d : RegNum) :
    bitsAt (encRegReg op s d) 11 5 = 0#5 := by
  apply BitVec.eq_of_getLsbD_eq
  intro i hi
  unfold encRegReg
  simp only [BitVec.getLsbD_append, BitVec.getLsbD_extractLsb']
  interval_cases i <;> simp

/-- Field `op` of the format, read back. -/
theorem encRegReg_op (op : BitVec 5) (s d : RegNum) :
    bitsAt (encRegReg op s d) 0 5 = op := by
  apply BitVec.eq_of_getLsbD_eq
  intro i hi
  unfold encRegReg
  simp only [BitVec.getLsbD_append, BitVec.getLsbD_extractLsb']
  interval_cases i <;> simp

/-- Field `s` of the format, read back. -/
theorem encRegReg_s (op : BitVec 5) (s d : RegNum) :
    bitsAt (encRegReg op s d) 8 3 = s := by
  apply BitVec.eq_of_getLsbD_eq
  intro i hi
  unfold encRegReg
  simp only [BitVec.getLsbD_append, BitVec.getLsbD_extractLsb']
  interval_cases i <;> simp

/-- Field `d` of the format, read back. -/
theorem encRegReg_d (op : BitVec 5) (s d : RegNum) :
    bitsAt (encRegReg op s d) 5 3 = d := by
  apply BitVec.eq_of_getLsbD_eq
  intro i hi
  unfold encRegReg
  simp only [BitVec.getLsbD_append, BitVec.getLsbD_extractLsb']
  interval_cases i <;> simp

/-- The bits the rows of this format fix. -/
theorem encRegImm_fixed (op : BitVec 5) (r : RegNum) (imm : BitVec 8) :
    encRegImm op r imm &&& 0xF800#16 = op.setWidth 16 <<< 11 := by
  apply BitVec.eq_of_getLsbD_eq
  intro i hi
  unfold encRegImm
  rw [BitVec.getLsbD_and]
  simp only [BitVec.getLsbD_append, BitVec.getLsbD_extractLsb', BitVec.getLsbD_shiftLeft, BitVec.getLsbD_setWidth]
  interval_cases i <;> simp [-BitVec.getLsbD_eq_getElem]

/-- Field `op` of the format, read back. -/
theorem encRegImm_op (op : BitVec 5) (r : RegNum) (imm : BitVec 8) :
    bitsAt (encRegImm op r imm) 11 5 = op := by
  apply BitVec.eq_of_getLsbD_eq
  intro i hi
  unfold encRegImm
  simp only [BitVec.getLsbD_append, BitVec.getLsbD_extractLsb']
  interval_cases i <;> simp

/-- Field `reg` of the format, read back. -/
theorem encRegImm_reg (op : BitVec 5) (r : RegNum) (imm : BitVec 8) :
    bitsAt (encRegImm op r imm) 5 3 = r := by
  apply BitVec.eq_of_getLsbD_eq
  intro i hi
  unfold encRegImm
  simp only [BitVec.getLsbD_append, BitVec.getLsbD_extractLsb']
  interval_cases i <;> simp

/-- Field `imm` of the format, read back. -/
theorem encRegImm_imm (op : BitVec 5) (r : RegNum) (imm : BitVec 8) :
    imm8RegImm (encRegImm op r imm) = imm := by
  apply BitVec.eq_of_getLsbD_eq
  intro i hi
  unfold imm8RegImm encRegImm
  simp only [BitVec.getLsbD_append, BitVec.getLsbD_extractLsb']
  interval_cases i <;> simp

/-- The bits the rows of this format fix. -/
theorem encLong11_fixed (op : BitVec 5) (imm : BitVec 11) :
    encLong11 op imm &&& 0xF800#16 = op.setWidth 16 <<< 11 := by
  apply BitVec.eq_of_getLsbD_eq
  intro i hi
  unfold encLong11
  rw [BitVec.getLsbD_and]
  simp only [BitVec.getLsbD_append, BitVec.getLsbD_extractLsb', BitVec.getLsbD_shiftLeft, BitVec.getLsbD_setWidth]
  interval_cases i <;> simp [-BitVec.getLsbD_eq_getElem]

/-- Field `op` of the format, read back. -/
theorem encLong11_op (op : BitVec 5) (imm : BitVec 11) :
    bitsAt (encLong11 op imm) 11 5 = op := by
  apply BitVec.eq_of_getLsbD_eq
  intro i hi
  unfold encLong11
  simp only [BitVec.getLsbD_append, BitVec.getLsbD_extractLsb']
  interval_cases i <;> simp

/-- Field `imm` of the format, read back. -/
theorem encLong11_imm (op : BitVec 5) (imm : BitVec 11) :
    imm11Long (encLong11 op imm) = imm := by
  apply BitVec.eq_of_getLsbD_eq
  intro i hi
  unfold imm11Long encLong11
  simp only [BitVec.getLsbD_append, BitVec.getLsbD_extractLsb']
  interval_cases i <;> simp

/-- The bits the rows of this format fix. -/
theorem encJmpCcc_fixed (op : BitVec 5) (leg : Leg) (imm : BitVec 8) :
    encJmpCcc op leg imm &&& 0xF800#16 = op.setWidth 16 <<< 11 := by
  apply BitVec.eq_of_getLsbD_eq
  intro i hi
  unfold encJmpCcc
  rw [BitVec.getLsbD_and]
  simp only [BitVec.getLsbD_append, BitVec.getLsbD_extractLsb', BitVec.getLsbD_shiftLeft, BitVec.getLsbD_setWidth]
  interval_cases i <;> simp [-BitVec.getLsbD_eq_getElem]

/-- Field `op` of the format, read back. -/
theorem encJmpCcc_op (op : BitVec 5) (leg : Leg) (imm : BitVec 8) :
    bitsAt (encJmpCcc op leg imm) 11 5 = op := by
  apply BitVec.eq_of_getLsbD_eq
  intro i hi
  unfold encJmpCcc
  simp only [BitVec.getLsbD_append, BitVec.getLsbD_extractLsb']
  interval_cases i <;> simp

/-- Field `leg` of the format, read back. -/
theorem encJmpCcc_leg (op : BitVec 5) (leg : Leg) (imm : BitVec 8) :
    bitsAt (encJmpCcc op leg imm) 1 3 = leg.toBits := by
  apply BitVec.eq_of_getLsbD_eq
  intro i hi
  unfold encJmpCcc
  simp only [BitVec.getLsbD_append, BitVec.getLsbD_extractLsb']
  interval_cases i <;> simp

/-- Field `imm` of the format, read back. -/
theorem encJmpCcc_imm (op : BitVec 5) (leg : Leg) (imm : BitVec 8) :
    imm8JmpCcc (encJmpCcc op leg imm) = imm := by
  apply BitVec.eq_of_getLsbD_eq
  intro i hi
  unfold imm8JmpCcc encJmpCcc
  simp only [BitVec.getLsbD_append, BitVec.getLsbD_extractLsb']
  interval_cases i <;> simp

/-- The bits the rows of this format fix. -/
theorem encMovCcc_fixed (op : BitVec 5) (leg : Leg) (s d : RegNum) :
    encMovCcc op leg s d &&& 0xF811#16 = op.setWidth 16 <<< 11 := by
  apply BitVec.eq_of_getLsbD_eq
  intro i hi
  unfold encMovCcc
  rw [BitVec.getLsbD_and]
  simp only [BitVec.getLsbD_append, BitVec.getLsbD_extractLsb', BitVec.getLsbD_shiftLeft, BitVec.getLsbD_setWidth]
  interval_cases i <;> simp [-BitVec.getLsbD_eq_getElem]

/-- Field `op` of the format, read back. -/
theorem encMovCcc_op (op : BitVec 5) (leg : Leg) (s d : RegNum) :
    bitsAt (encMovCcc op leg s d) 11 5 = op := by
  apply BitVec.eq_of_getLsbD_eq
  intro i hi
  unfold encMovCcc
  simp only [BitVec.getLsbD_append, BitVec.getLsbD_extractLsb']
  interval_cases i <;> simp

/-- Field `leg` of the format, read back. -/
theorem encMovCcc_leg (op : BitVec 5) (leg : Leg) (s d : RegNum) :
    bitsAt (encMovCcc op leg s d) 1 3 = leg.toBits := by
  apply BitVec.eq_of_getLsbD_eq
  intro i hi
  unfold encMovCcc
  simp only [BitVec.getLsbD_append, BitVec.getLsbD_extractLsb']
  interval_cases i <;> simp

/-- Field `s` of the format, read back. -/
theorem encMovCcc_s (op : BitVec 5) (leg : Leg) (s d : RegNum) :
    bitsAt (encMovCcc op leg s d) 8 3 = s := by
  apply BitVec.eq_of_getLsbD_eq
  intro i hi
  unfold encMovCcc
  simp only [BitVec.getLsbD_append, BitVec.getLsbD_extractLsb']
  interval_cases i <;> simp

/-- Field `d` of the format, read back. -/
theorem encMovCcc_d (op : BitVec 5) (leg : Leg) (s d : RegNum) :
    bitsAt (encMovCcc op leg s d) 5 3 = d := by
  apply BitVec.eq_of_getLsbD_eq
  intro i hi
  unfold encMovCcc
  simp only [BitVec.getLsbD_append, BitVec.getLsbD_extractLsb']
  interval_cases i <;> simp

/-- Field `bit4` of the format, read back. -/
theorem encMovCcc_bit4 (op : BitVec 5) (leg : Leg) (s d : RegNum) :
    bitsAt (encMovCcc op leg s d) 4 1 = 0#1 := by
  apply BitVec.eq_of_getLsbD_eq
  intro i hi
  unfold encMovCcc
  simp only [BitVec.getLsbD_append, BitVec.getLsbD_extractLsb']
  interval_cases i <;> simp

/-- Field `bit0` of the format, read back. -/
theorem encMovCcc_bit0 (op : BitVec 5) (leg : Leg) (s d : RegNum) :
    bitsAt (encMovCcc op leg s d) 0 1 = 0#1 := by
  apply BitVec.eq_of_getLsbD_eq
  intro i hi
  unfold encMovCcc
  simp only [BitVec.getLsbD_append, BitVec.getLsbD_extractLsb']
  interval_cases i <;> simp

/-- The bits the rows of this format fix. -/
theorem encLongImm_fixed (op imm : BitVec 8) :
    encLongImm op imm &&& 0xFF00#16 = op.setWidth 16 <<< 8 := by
  apply BitVec.eq_of_getLsbD_eq
  intro i hi
  unfold encLongImm
  rw [BitVec.getLsbD_and]
  simp only [BitVec.getLsbD_append, BitVec.getLsbD_extractLsb', BitVec.getLsbD_shiftLeft, BitVec.getLsbD_setWidth]
  interval_cases i <;> simp [-BitVec.getLsbD_eq_getElem]

/-- Field `group` of the format, read back. -/
theorem encLongImm_group (op imm : BitVec 8) :
    bitsAt (encLongImm op imm) 11 5 = op.extractLsb' 3 5 := by
  apply BitVec.eq_of_getLsbD_eq
  intro i hi
  unfold encLongImm
  simp only [BitVec.getLsbD_append, BitVec.getLsbD_extractLsb']
  interval_cases i <;> simp

/-- Field `op` of the format, read back. -/
theorem encLongImm_op (op imm : BitVec 8) :
    bitsAt (encLongImm op imm) 8 3 = op.extractLsb' 0 3 := by
  apply BitVec.eq_of_getLsbD_eq
  intro i hi
  unfold encLongImm
  simp only [BitVec.getLsbD_append, BitVec.getLsbD_extractLsb']
  interval_cases i <;> simp

/-- Field `imm` of the format, read back. -/
theorem encLongImm_imm (op imm : BitVec 8) :
    imm8LongImm (encLongImm op imm) = imm := by
  apply BitVec.eq_of_getLsbD_eq
  intro i hi
  unfold imm8LongImm encLongImm
  simp only [BitVec.getLsbD_append, BitVec.getLsbD_extractLsb']
  interval_cases i <;> simp

/-- The bits the rows of this format fix. -/
theorem encLongRegImm_fixed (op : BitVec 8) (r : RegNum) (imm : BitVec 5) :
    encLongRegImm op r imm &&& 0xFF00#16 = op.setWidth 16 <<< 8 := by
  apply BitVec.eq_of_getLsbD_eq
  intro i hi
  unfold encLongRegImm
  rw [BitVec.getLsbD_and]
  simp only [BitVec.getLsbD_append, BitVec.getLsbD_extractLsb', BitVec.getLsbD_shiftLeft, BitVec.getLsbD_setWidth]
  interval_cases i <;> simp [-BitVec.getLsbD_eq_getElem]

/-- Field `group` of the format, read back. -/
theorem encLongRegImm_group (op : BitVec 8) (r : RegNum) (imm : BitVec 5) :
    bitsAt (encLongRegImm op r imm) 11 5 = op.extractLsb' 3 5 := by
  apply BitVec.eq_of_getLsbD_eq
  intro i hi
  unfold encLongRegImm
  simp only [BitVec.getLsbD_append, BitVec.getLsbD_extractLsb']
  interval_cases i <;> simp

/-- Field `op` of the format, read back. -/
theorem encLongRegImm_op (op : BitVec 8) (r : RegNum) (imm : BitVec 5) :
    bitsAt (encLongRegImm op r imm) 8 3 = op.extractLsb' 0 3 := by
  apply BitVec.eq_of_getLsbD_eq
  intro i hi
  unfold encLongRegImm
  simp only [BitVec.getLsbD_append, BitVec.getLsbD_extractLsb']
  interval_cases i <;> simp

/-- Field `reg` of the format, read back. -/
theorem encLongRegImm_reg (op : BitVec 8) (r : RegNum) (imm : BitVec 5) :
    bitsAt (encLongRegImm op r imm) 5 3 = r := by
  apply BitVec.eq_of_getLsbD_eq
  intro i hi
  unfold encLongRegImm
  simp only [BitVec.getLsbD_append, BitVec.getLsbD_extractLsb']
  interval_cases i <;> simp

/-- Field `imm` of the format, read back. -/
theorem encLongRegImm_imm (op : BitVec 8) (r : RegNum) (imm : BitVec 5) :
    imm5LongRegImm (encLongRegImm op r imm) = imm := by
  apply BitVec.eq_of_getLsbD_eq
  intro i hi
  unfold imm5LongRegImm encLongRegImm
  simp only [BitVec.getLsbD_append, BitVec.getLsbD_extractLsb']
  interval_cases i <;> simp

/-! ### A word from its fields -/

/-- A word is what its fields encode to. -/
theorem encRegImm_fields (w : Word) : encRegImm (bitsAt w 11 5) (bitsAt w 5 3) (imm8RegImm w) = w := by
  apply BitVec.eq_of_getLsbD_eq
  intro i hi
  unfold encRegImm imm8RegImm
  simp only [BitVec.getLsbD_append, BitVec.getLsbD_extractLsb']
  interval_cases i <;> simp

/-- A word is what its fields encode to. -/
theorem encLong11_fields (w : Word) : encLong11 (bitsAt w 11 5) (imm11Long w) = w := by
  apply BitVec.eq_of_getLsbD_eq
  intro i hi
  unfold encLong11 imm11Long
  simp only [BitVec.getLsbD_append, BitVec.getLsbD_extractLsb']
  interval_cases i <;> simp

/-- A word is what its fields encode to. -/
theorem encJmpCcc_fields (w : Word) : 
    encJmpCcc (bitsAt w 11 5) (Leg.ofBits (bitsAt w 1 3)) (imm8JmpCcc w) = w := by
  apply BitVec.eq_of_getLsbD_eq
  intro i hi
  unfold encJmpCcc imm8JmpCcc
  rw [Leg.toBits_ofBits]
  simp only [BitVec.getLsbD_append, BitVec.getLsbD_extractLsb']
  interval_cases i <;> simp

/-- A word is what its fields encode to. -/
theorem encLongImm_fields (w : Word) : encLongImm (bitsAt w 8 8) (imm8LongImm w) = w := by
  apply BitVec.eq_of_getLsbD_eq
  intro i hi
  unfold encLongImm imm8LongImm
  simp only [BitVec.getLsbD_append, BitVec.getLsbD_extractLsb']
  interval_cases i <;> simp

/-- A word is what its fields encode to. -/
theorem encLongRegImm_fields (w : Word) : 
    encLongRegImm (bitsAt w 8 8) (bitsAt w 5 3) (imm5LongRegImm w) = w := by
  apply BitVec.eq_of_getLsbD_eq
  intro i hi
  unfold encLongRegImm imm5LongRegImm
  simp only [BitVec.getLsbD_append, BitVec.getLsbD_extractLsb']
  interval_cases i <;> simp

/-- A REG_REG word is what its fields encode to. -/
theorem encRegReg_fields (w : Word) (h : bitsAt w 11 5 = 0#5) :
    encRegReg (bitsAt w 0 5) (bitsAt w 8 3) (bitsAt w 5 3) = w := by
  rw [encRegReg, ← h]
  apply BitVec.eq_of_getLsbD_eq
  intro i hi
  simp only [BitVec.getLsbD_append, BitVec.getLsbD_extractLsb']
  interval_cases i <;> simp

/-- A MOV_CCC word with its must-be-zero bits at 0 is what its fields encode to. -/
theorem encMovCcc_fields (w : Word) (h4 : bitsAt w 4 1 = 0#1) (h0 : bitsAt w 0 1 = 0#1) :
    encMovCcc (bitsAt w 11 5) (Leg.ofBits (bitsAt w 1 3)) (bitsAt w 8 3) (bitsAt w 5 3) = w := by
  rw [encMovCcc, Leg.toBits_ofBits]
  conv => lhs; rw [← h4]; rhs; rw [h4, ← h0]
  apply BitVec.eq_of_getLsbD_eq
  intro i hi
  simp only [BitVec.getLsbD_append, BitVec.getLsbD_extractLsb']
  interval_cases i <;> simp

/-- The first five bits of a word are the first five of its first eight. -/
theorem bitsAt_group (w : Word) : (bitsAt w 8 8).extractLsb' 3 5 = bitsAt w 11 5 := by
  apply BitVec.eq_of_getLsbD_eq
  intro i hi
  simp only [BitVec.getLsbD_extractLsb']
  interval_cases i <;> simp

/-- Bits 10:8 of a word are the last three of its first eight. -/
theorem bitsAt_long (w : Word) : (bitsAt w 8 8).extractLsb' 0 3 = bitsAt w 8 3 := by
  apply BitVec.eq_of_getLsbD_eq
  intro i hi
  simp only [BitVec.getLsbD_extractLsb']
  interval_cases i <;> simp

/-- The first eight bits of a word from the first five and the three after them. -/
theorem bitsAt_byte (w : Word) : bitsAt w 8 8 = bitsAt w 11 5 ++ bitsAt w 8 3 := by
  apply BitVec.eq_of_getLsbD_eq
  intro i hi
  simp only [BitVec.getLsbD_append, BitVec.getLsbD_extractLsb']
  interval_cases i <;> simp

end Sys2Proof
end

