-- ==== Sys2Proof/Laws/Memory.lean ====
section
/-! SUPPORT. Lists of cells kept by address, and physical memory: what a read gives after a write, and the
canonical form, which every memory operation keeps. -/

namespace Sys2Proof.Machine

variable {α : Type}

/-! ### Cells by address -/

/-- What is put at an address is listed there. -/
@[simp] theorem cellGet_cellPut_self (l : List (Nat × α)) (a : Nat) (v : α) : cellGet (cellPut l a v) a = some v := by
  induction l with
  | nil => simp [cellPut, cellGet]
  | cons x t ih =>
    obtain ⟨k, w⟩ := x
    simp only [cellPut]
    split
    · simp [cellGet]
    · split
      · simp [cellGet]
      · rename_i h; simp [cellGet, Ne.symm h, ih]

/-- Putting at an address changes no other address. -/
theorem cellGet_cellPut_of_ne (l : List (Nat × α)) {a b : Nat} (v : α) (h : b ≠ a) :
    cellGet (cellPut l a v) b = cellGet l b := by
  induction l with
  | nil => simp [cellPut, cellGet, Ne.symm h]
  | cons x t ih =>
    obtain ⟨k, w⟩ := x
    simp only [cellPut]
    split
    · simp [cellGet, Ne.symm h]
    · split
      · rename_i e; subst e; simp [cellGet, Ne.symm h]
      · simp [cellGet, ih]

/-- Nothing is listed where a cell was deleted. -/
@[simp] theorem cellGet_cellDel_self (l : List (Nat × α)) (a : Nat) : cellGet (cellDel l a) a = none := by
  induction l with
  | nil => rfl
  | cons x t ih =>
    obtain ⟨k, w⟩ := x
    simp only [cellDel]
    split
    · exact ih
    · rename_i h; simp [cellGet, h, ih]

/-- Deleting changes no other address. -/
theorem cellGet_cellDel_of_ne (l : List (Nat × α)) {a b : Nat} (h : b ≠ a) :
    cellGet (cellDel l a) b = cellGet l b := by
  induction l with
  | nil => rfl
  | cons x t ih =>
    obtain ⟨k, w⟩ := x
    simp only [cellDel]
    split
    · rename_i e; subst e; simp [cellGet, Ne.symm h, ih]
    · simp [cellGet, ih]

/-- What a list with a cell put holds. -/
theorem mem_cellPut {l : List (Nat × α)} {a : Nat} {v : α} {x : Nat × α} (h : x ∈ cellPut l a v) :
    x = (a, v) ∨ x ∈ l := by
  induction l with
  | nil => simpa [cellPut] using h
  | cons y t ih =>
    obtain ⟨k, w⟩ := y
    simp only [cellPut] at h
    split at h
    · simpa using h
    · split at h
      · rcases List.mem_cons.1 h with h | h
        · exact .inl h
        · exact .inr (List.mem_cons_of_mem _ h)
      · rcases List.mem_cons.1 h with h | h
        · exact .inr (h ▸ List.mem_cons_self)
        · exact (ih h).imp id (List.mem_cons_of_mem _)

/-- What a list with a cell deleted holds. -/
theorem mem_cellDel {l : List (Nat × α)} {a : Nat} {x : Nat × α} (h : x ∈ cellDel l a) : x ∈ l := by
  induction l with
  | nil => exact h
  | cons y t ih =>
    obtain ⟨k, w⟩ := y
    simp only [cellDel] at h
    split at h
    · exact List.mem_cons_of_mem _ (ih h)
    · rcases List.mem_cons.1 h with h | h
      · exact h ▸ List.mem_cons_self
      · exact List.mem_cons_of_mem _ (ih h)

/-- Putting a cell keeps the rising order. -/
theorem cellsSorted_cellPut {l : List (Nat × α)} (h : cellsSorted l) (a : Nat) (v : α) :
    cellsSorted (cellPut l a v) := by
  induction l with
  | nil => simp [cellPut, cellsSorted]
  | cons y t ih =>
    obtain ⟨k, w⟩ := y
    obtain ⟨hk, ht⟩ := List.pairwise_cons.1 h
    simp only [cellPut]
    split
    · rename_i hlt
      refine List.pairwise_cons.2 ⟨fun x hx => ?_, h⟩
      rcases List.mem_cons.1 hx with hx | hx
      · simpa [hx] using hlt
      · exact lt_trans hlt (hk x hx)
    · split
      · rename_i e; subst e
        exact List.pairwise_cons.2 ⟨hk, ht⟩
      · rename_i h1 h2
        refine List.pairwise_cons.2 ⟨fun x hx => ?_, ih ht⟩
        rcases mem_cellPut hx with hx | hx
        · subst hx; show k < a; omega
        · exact hk x hx

/-- Deleting a cell keeps the rising order. -/
theorem cellsSorted_cellDel {l : List (Nat × α)} (h : cellsSorted l) (a : Nat) : cellsSorted (cellDel l a) := by
  induction l with
  | nil => exact h
  | cons y t ih =>
    obtain ⟨k, w⟩ := y
    obtain ⟨hk, ht⟩ := List.pairwise_cons.1 h
    simp only [cellDel]
    split
    · exact ih ht
    · exact List.pairwise_cons.2 ⟨fun x hx => hk x (mem_cellDel hx), ih ht⟩

/-! ### Bytes -/

/-- A byte just written reads as written. -/
@[simp] theorem readByte_writeByte_self (m : Memory) (a : Nat) (v : BitVec 8) :
    readByte (writeByte m a v) a = v := by
  unfold writeByte readByte
  split
  · rename_i h; rw [cellGet_cellDel_self]; exact h.symm
  · rw [cellGet_cellPut_self]; rfl

/-- Writing a byte leaves every other byte alone. -/
theorem readByte_writeByte_of_ne (m : Memory) {a b : Nat} (v : BitVec 8) (h : b ≠ a) :
    readByte (writeByte m a v) b = readByte m b := by
  unfold writeByte readByte
  split
  · rw [cellGet_cellDel_of_ne _ h]
  · rw [cellGet_cellPut_of_ne _ _ h]

/-- Writing a byte keeps the canonical form. -/
theorem wf_writeByte {m : Memory} (h : Memory.wf m) (a : Nat) (v : BitVec 8) : Memory.wf (writeByte m a v) := by
  unfold writeByte
  split
  · exact ⟨cellsSorted_cellDel h.1 a, fun x hx => h.2 x (mem_cellDel hx)⟩
  · rename_i hv
    refine ⟨cellsSorted_cellPut h.1 a v, fun x hx => ?_⟩
    rcases mem_cellPut hx with hx | hx
    · subst hx; exact hv
    · exact h.2 x hx

/-- Writing a byte inside physical memory lists nothing outside it. -/
theorem inside_writeByte {m : Memory} {k : Nat} (h : Memory.inside m k) {a : Nat} (ha : a < 2 * (k * 1024))
    (v : BitVec 8) : Memory.inside (writeByte m a v) k := by
  unfold writeByte
  split
  · exact fun x hx => h x (mem_cellDel hx)
  · intro x hx
    rcases mem_cellPut hx with hx | hx
    · subst hx; exact ha
    · exact h x hx

/-! ### Words -/

/-- A word is its two bytes. -/
theorem word_of_bytes (v : Word) : v.extractLsb' 8 8 ++ v.extractLsb' 0 8 = v := by
  apply BitVec.eq_of_getLsbD_eq
  intro i hi
  simp only [BitVec.getLsbD_append, BitVec.getLsbD_extractLsb']
  interval_cases i <;> simp

/-- A word just written reads as written. -/
@[simp] theorem readWord_writeWord_self (m : Memory) (pa : Nat) (v : Word) :
    readWord (writeWord m pa v) pa = v := by
  unfold readWord writeWord
  rw [readByte_writeByte_self, readByte_writeByte_of_ne _ _ (by omega), readByte_writeByte_self, word_of_bytes]

/-- Writing a word leaves every byte outside it alone. -/
theorem readByte_writeWord_of_ne (m : Memory) {pa a : Nat} (v : Word) (h0 : a ≠ 2 * pa) (h1 : a ≠ 2 * pa + 1) :
    readByte (writeWord m pa v) a = readByte m a := by
  unfold writeWord
  rw [readByte_writeByte_of_ne _ _ h1, readByte_writeByte_of_ne _ _ h0]

/-- Writing a word leaves every other word alone. -/
theorem readWord_writeWord_of_ne (m : Memory) {pa pb : Nat} (v : Word) (h : pb ≠ pa) :
    readWord (writeWord m pa v) pb = readWord m pb := by
  unfold readWord
  rw [readByte_writeWord_of_ne _ _ (by omega) (by omega), readByte_writeWord_of_ne _ _ (by omega) (by omega)]

/-- Writing a word keeps the canonical form. -/
theorem wf_writeWord {m : Memory} (h : Memory.wf m) (pa : Nat) (v : Word) : Memory.wf (writeWord m pa v) :=
  wf_writeByte (wf_writeByte h _ _) _ _

/-- Writing a word inside physical memory lists nothing outside it. -/
theorem inside_writeWord {m : Memory} {k : Nat} (h : Memory.inside m k) {pa : Nat} (hp : pa < k * 1024)
    (v : Word) : Memory.inside (writeWord m pa v) k :=
  inside_writeByte (inside_writeByte h (by omega) _) (by omega) _

/-! ### An image in memory -/

/-- Writing words leaves the words below them alone. -/
theorem readWord_writeWords_below (ws : List Word) (m : Memory) {pa pb : Nat} (h : pb < pa) :
    readWord (writeWords m pa ws) pb = readWord m pb := by
  induction ws generalizing m pa with
  | nil => rfl
  | cons w ws ih =>
    rw [writeWords, ih _ (by omega), readWord_writeWord_of_ne _ _ (by omega)]

/-- Each word of an image reads as written, and the words above it as before. -/
theorem readWord_writeWords (ws : List Word) (m : Memory) (pa n : Nat) :
    readWord (writeWords m pa ws) (pa + n) = ws.getD n (readWord m (pa + n)) := by
  induction ws generalizing m pa n with
  | nil => rfl
  | cons w ws ih =>
    rw [writeWords]
    cases n with
    | zero =>
      rw [readWord_writeWords_below _ _ (by omega), Nat.add_zero, readWord_writeWord_self]
      rfl
    | succ n =>
      rw [show pa + (n + 1) = pa + 1 + n by omega, ih, readWord_writeWord_of_ne _ _ (by omega)]
      rfl

/-- Writing words keeps the canonical form. -/
theorem wf_writeWords (ws : List Word) {m : Memory} (h : Memory.wf m) (pa : Nat) :
    Memory.wf (writeWords m pa ws) := by
  induction ws generalizing m pa with
  | nil => exact h
  | cons w ws ih => exact ih (wf_writeWord h _ _) _

/-- Writing words inside physical memory lists nothing outside it. -/
theorem inside_writeWords (ws : List Word) {m : Memory} {k pa : Nat} (h : Memory.inside m k)
    (hp : pa + ws.length ≤ k * 1024) : Memory.inside (writeWords m pa ws) k := by
  induction ws generalizing m pa with
  | nil => exact h
  | cons w ws ih =>
    rw [List.length_cons] at hp
    exact ih (inside_writeWord h (by omega) _) (by omega)

/-- The reset state's memory is in the canonical form. -/
theorem wf_reset : Memory.wf State.reset.mem := ⟨List.Pairwise.nil, fun _ h => nomatch h⟩

/-! ### Stores and fetches -/

/-- A store keeps the canonical form. -/
theorem State.wf_store {s : State} (h : Memory.wf s.mem) (pa : Nat) (v : Word) : Memory.wf (s.store pa v).mem :=
  wf_writeWord h pa v

/-- The record of older words keeps its order under a store. -/
theorem cellsSorted_noteStore {s : State} (h : cellsSorted s.stale) (pa : Nat) : cellsSorted (noteStore s pa) := by
  unfold noteStore
  split
  · exact cellsSorted_cellDel h pa
  · exact cellsSorted_cellPut h pa _

/-- A store changes the record of older words at its own address alone. -/
theorem cellGet_noteStore_of_ne (s : State) {pa p : Nat} (h : p ≠ pa) :
    cellGet (noteStore s pa) p = cellGet s.stale p := by
  unfold noteStore
  split
  · exact cellGet_cellDel_of_ne _ h
  · exact cellGet_cellPut_of_ne _ _ h

/-- With F2.P = 1 a store leaves no older word at its address. -/
theorem cellGet_noteStore_protected {s : State} (h : s.codeProtected = true) (pa : Nat) :
    cellGet (noteStore s pa) pa = none := by
  unfold noteStore
  rw [if_pos h]
  exact cellGet_cellDel_self _ _

/-- With F2.P = 0 a store adds the word it replaces to the older words at its address. -/
theorem cellGet_noteStore_open {s : State} (h : s.codeProtected = false) (pa : Nat) :
    cellGet (noteStore s pa) pa = some (addOlder (readWord s.mem pa) (s.olderWords pa)) := by
  unfold noteStore
  rw [if_neg (by simp [h])]
  exact cellGet_cellPut_self _ _ _

/-- The older words after one joined them. -/
@[simp] theorem mem_addOlder {w x : Word} {olds : List Word} : x ∈ addOlder w olds ↔ x = w ∨ x ∈ olds := by
  unfold addOlder
  split
  · rename_i h; exact ⟨.inr, fun hx => hx.elim (fun e => e ▸ h) id⟩
  · exact List.mem_cons

/-- A fetch changes the record of older words and the count of free values alone, keeps the order and records
nothing. -/
theorem State.fetchAt_frame (s : State) (pa : Nat) :
    { (s.fetchAt pa).2 with stale := s.stale, draws := s.draws } = s ∧
      (cellsSorted s.stale → cellsSorted (s.fetchAt pa).2.stale) ∧
      ∀ p, cellGet s.stale p = none → cellGet (s.fetchAt pa).2.stale p = none := by
  unfold State.fetchAt
  split
  · refine ⟨rfl, fun h => cellsSorted_cellDel h pa, fun p h => ?_⟩
    by_cases e : p = pa
    · subst e; exact cellGet_cellDel_self _ _
    · exact (cellGet_cellDel_of_ne _ e).trans h
  · split
    · exact ⟨rfl, id, fun _ => id⟩
    · exact ⟨rfl, id, fun _ => id⟩

/-- With F2.P = 1 a fetch gives the word in memory. -/
theorem State.fetchAt_protected {s : State} (h : s.codeProtected = true) (pa : Nat) :
    (s.fetchAt pa).1 = readWord s.mem pa := by
  unfold State.fetchAt
  rw [if_pos h]

/-- With F2.P = 0 and older words on record, a free value picks one of them or the word in memory. -/
theorem State.fetchAt_open {s : State} (h : s.codeProtected = false) {pa : Nat} {olds : List Word}
    (ho : cellGet s.stale pa = some olds) :
    s.fetchAt pa =
      (olds.getD (Config.freeWord s.draws).toNat (readWord s.mem pa), { s with draws := s.draws + 1 }) := by
  unfold State.fetchAt
  rw [if_neg (by simp [h]), ho]

/-- Where no older word is recorded, a fetch gives the word in memory and draws nothing. -/
theorem State.fetchAt_of_none (s : State) (pa : Nat) (h : cellGet s.stale pa = none) :
    (s.fetchAt pa).1 = readWord s.mem pa ∧ { (s.fetchAt pa).2 with stale := s.stale } = s := by
  unfold State.fetchAt
  split
  · exact ⟨rfl, rfl⟩
  · rw [h]; exact ⟨rfl, rfl⟩

end Sys2Proof.Machine
end

