-- ==== Sys2Proof/Laws/State.lean ====
section
/-! SUPPORT. What each update of State does to each field, one lemma a field, so that no proof unfolds an
update; and reading a register after writing one. -/

namespace Sys2Proof.Machine

variable (s : State)

/-! ### `State.setReg` -/

@[simp] theorem State.setReg_regs (n : RegNum) (v : Word) : (s.setReg n v).regs = s.regs.set n.toNat v := rfl
@[simp] theorem State.setReg_ip (n : RegNum) (v : Word) : (s.setReg n v).ip = s.ip := rfl
@[simp] theorem State.setReg_lr (n : RegNum) (v : Word) : (s.setReg n v).lr = s.lr := rfl
@[simp] theorem State.setReg_sp (n : RegNum) (v : Word) : (s.setReg n v).sp = s.sp := rfl
@[simp] theorem State.setReg_ofs (n : RegNum) (v : Word) : (s.setReg n v).ofs = s.ofs := rfl
@[simp] theorem State.setReg_fl (n : RegNum) (v : Word) : (s.setReg n v).fl = s.fl := rfl
@[simp] theorem State.setReg_f1 (n : RegNum) (v : Word) : (s.setReg n v).f1 = s.f1 := rfl
@[simp] theorem State.setReg_f2 (n : RegNum) (v : Word) : (s.setReg n v).f2 = s.f2 := rfl
@[simp] theorem State.setReg_ui (n : RegNum) (v : Word) : (s.setReg n v).ui = s.ui := rfl
@[simp] theorem State.setReg_uiValid (n : RegNum) (v : Word) : (s.setReg n v).uiValid = s.uiValid := rfl
@[simp] theorem State.setReg_pid (n : RegNum) (v : Word) : (s.setReg n v).pid = s.pid := rfl
@[simp] theorem State.setReg_pidKnown (n : RegNum) (v : Word) : (s.setReg n v).pidKnown = s.pidKnown := rfl
@[simp] theorem State.setReg_ptAddr (n : RegNum) (v : Word) : (s.setReg n v).ptAddr = s.ptAddr := rfl
@[simp] theorem State.setReg_pxId (n : RegNum) (v : Word) : (s.setReg n v).pxId = s.pxId := rfl
@[simp] theorem State.setReg_pxIp (n : RegNum) (v : Word) : (s.setReg n v).pxIp = s.pxIp := rfl
@[simp] theorem State.setReg_pxInfo0 (n : RegNum) (v : Word) : (s.setReg n v).pxInfo0 = s.pxInfo0 := rfl
@[simp] theorem State.setReg_pxInfo1 (n : RegNum) (v : Word) : (s.setReg n v).pxInfo1 = s.pxInfo1 := rfl
@[simp] theorem State.setReg_pxInfo2 (n : RegNum) (v : Word) : (s.setReg n v).pxInfo2 = s.pxInfo2 := rfl
@[simp] theorem State.setReg_priv (n : RegNum) (v : Word) : (s.setReg n v).priv = s.priv := rfl
@[simp] theorem State.setReg_intEnable (n : RegNum) (v : Word) : (s.setReg n v).intEnable = s.intEnable := rfl
@[simp] theorem State.setReg_paging (n : RegNum) (v : Word) : (s.setReg n v).paging = s.paging := rfl
@[simp] theorem State.setReg_ptBase (n : RegNum) (v : Word) : (s.setReg n v).ptBase = s.ptBase := rfl
@[simp] theorem State.setReg_ptCache (n : RegNum) (v : Word) : (s.setReg n v).ptCache = s.ptCache := rfl
@[simp] theorem State.setReg_ptKnown (n : RegNum) (v : Word) : (s.setReg n v).ptKnown = s.ptKnown := rfl
@[simp] theorem State.setReg_iht (n : RegNum) (v : Word) : (s.setReg n v).iht = s.iht := rfl
@[simp] theorem State.setReg_savedUi (n : RegNum) (v : Word) : (s.setReg n v).savedUi = s.savedUi := rfl
@[simp] theorem State.setReg_savedUiValid (n : RegNum) (v : Word) :
    (s.setReg n v).savedUiValid = s.savedUiValid := rfl
@[simp] theorem State.setReg_savedPriv (n : RegNum) (v : Word) : (s.setReg n v).savedPriv = s.savedPriv := rfl
@[simp] theorem State.setReg_run (n : RegNum) (v : Word) : (s.setReg n v).run = s.run := rfl
@[simp] theorem State.setReg_pendingTimer (n : RegNum) (v : Word) :
    (s.setReg n v).pendingTimer = s.pendingTimer := rfl
@[simp] theorem State.setReg_pendingIo (n : RegNum) (v : Word) : (s.setReg n v).pendingIo = s.pendingIo := rfl
@[simp] theorem State.setReg_arrivals (n : RegNum) (v : Word) : (s.setReg n v).arrivals = s.arrivals := rfl
@[simp] theorem State.setReg_portInputs (n : RegNum) (v : Word) :
    (s.setReg n v).portInputs = s.portInputs := rfl
@[simp] theorem State.setReg_portTrace (n : RegNum) (v : Word) : (s.setReg n v).portTrace = s.portTrace := rfl
@[simp] theorem State.setReg_mem (n : RegNum) (v : Word) : (s.setReg n v).mem = s.mem := rfl
@[simp] theorem State.setReg_stale (n : RegNum) (v : Word) : (s.setReg n v).stale = s.stale := rfl
@[simp] theorem State.setReg_draws (n : RegNum) (v : Word) : (s.setReg n v).draws = s.draws := rfl
@[simp] theorem State.setReg_cfg (n : RegNum) (v : Word) : (s.setReg n v).cfg = s.cfg := rfl

/-! ### `State.setFl` -/

@[simp] theorem State.setFl_regs (f : Flags) : (s.setFl f).regs = s.regs := rfl
@[simp] theorem State.setFl_ip (f : Flags) : (s.setFl f).ip = s.ip := rfl
@[simp] theorem State.setFl_lr (f : Flags) : (s.setFl f).lr = s.lr := rfl
@[simp] theorem State.setFl_sp (f : Flags) : (s.setFl f).sp = s.sp := rfl
@[simp] theorem State.setFl_ofs (f : Flags) : (s.setFl f).ofs = s.ofs := rfl
@[simp] theorem State.setFl_fl (f : Flags) : (s.setFl f).fl = f := rfl
@[simp] theorem State.setFl_f1 (f : Flags) : (s.setFl f).f1 = s.f1 := rfl
@[simp] theorem State.setFl_f2 (f : Flags) : (s.setFl f).f2 = s.f2 := rfl
@[simp] theorem State.setFl_ui (f : Flags) : (s.setFl f).ui = s.ui := rfl
@[simp] theorem State.setFl_uiValid (f : Flags) : (s.setFl f).uiValid = s.uiValid := rfl
@[simp] theorem State.setFl_pid (f : Flags) : (s.setFl f).pid = s.pid := rfl
@[simp] theorem State.setFl_pidKnown (f : Flags) : (s.setFl f).pidKnown = s.pidKnown := rfl
@[simp] theorem State.setFl_ptAddr (f : Flags) : (s.setFl f).ptAddr = s.ptAddr := rfl
@[simp] theorem State.setFl_pxId (f : Flags) : (s.setFl f).pxId = s.pxId := rfl
@[simp] theorem State.setFl_pxIp (f : Flags) : (s.setFl f).pxIp = s.pxIp := rfl
@[simp] theorem State.setFl_pxInfo0 (f : Flags) : (s.setFl f).pxInfo0 = s.pxInfo0 := rfl
@[simp] theorem State.setFl_pxInfo1 (f : Flags) : (s.setFl f).pxInfo1 = s.pxInfo1 := rfl
@[simp] theorem State.setFl_pxInfo2 (f : Flags) : (s.setFl f).pxInfo2 = s.pxInfo2 := rfl
@[simp] theorem State.setFl_priv (f : Flags) : (s.setFl f).priv = s.priv := rfl
@[simp] theorem State.setFl_intEnable (f : Flags) : (s.setFl f).intEnable = s.intEnable := rfl
@[simp] theorem State.setFl_paging (f : Flags) : (s.setFl f).paging = s.paging := rfl
@[simp] theorem State.setFl_ptBase (f : Flags) : (s.setFl f).ptBase = s.ptBase := rfl
@[simp] theorem State.setFl_ptCache (f : Flags) : (s.setFl f).ptCache = s.ptCache := rfl
@[simp] theorem State.setFl_ptKnown (f : Flags) : (s.setFl f).ptKnown = s.ptKnown := rfl
@[simp] theorem State.setFl_iht (f : Flags) : (s.setFl f).iht = s.iht := rfl
@[simp] theorem State.setFl_savedUi (f : Flags) : (s.setFl f).savedUi = s.savedUi := rfl
@[simp] theorem State.setFl_savedUiValid (f : Flags) : (s.setFl f).savedUiValid = s.savedUiValid := rfl
@[simp] theorem State.setFl_savedPriv (f : Flags) : (s.setFl f).savedPriv = s.savedPriv := rfl
@[simp] theorem State.setFl_run (f : Flags) : (s.setFl f).run = s.run := rfl
@[simp] theorem State.setFl_pendingTimer (f : Flags) : (s.setFl f).pendingTimer = s.pendingTimer := rfl
@[simp] theorem State.setFl_pendingIo (f : Flags) : (s.setFl f).pendingIo = s.pendingIo := rfl
@[simp] theorem State.setFl_arrivals (f : Flags) : (s.setFl f).arrivals = s.arrivals := rfl
@[simp] theorem State.setFl_portInputs (f : Flags) : (s.setFl f).portInputs = s.portInputs := rfl
@[simp] theorem State.setFl_portTrace (f : Flags) : (s.setFl f).portTrace = s.portTrace := rfl
@[simp] theorem State.setFl_mem (f : Flags) : (s.setFl f).mem = s.mem := rfl
@[simp] theorem State.setFl_stale (f : Flags) : (s.setFl f).stale = s.stale := rfl
@[simp] theorem State.setFl_draws (f : Flags) : (s.setFl f).draws = s.draws := rfl
@[simp] theorem State.setFl_cfg (f : Flags) : (s.setFl f).cfg = s.cfg := rfl

/-! ### `State.setIp` -/

@[simp] theorem State.setIp_regs (v : Word) : (s.setIp v).regs = s.regs := rfl
@[simp] theorem State.setIp_ip (v : Word) : (s.setIp v).ip = v := rfl
@[simp] theorem State.setIp_lr (v : Word) : (s.setIp v).lr = s.lr := rfl
@[simp] theorem State.setIp_sp (v : Word) : (s.setIp v).sp = s.sp := rfl
@[simp] theorem State.setIp_ofs (v : Word) : (s.setIp v).ofs = s.ofs := rfl
@[simp] theorem State.setIp_fl (v : Word) : (s.setIp v).fl = s.fl := rfl
@[simp] theorem State.setIp_f1 (v : Word) : (s.setIp v).f1 = s.f1 := rfl
@[simp] theorem State.setIp_f2 (v : Word) : (s.setIp v).f2 = s.f2 := rfl
@[simp] theorem State.setIp_ui (v : Word) : (s.setIp v).ui = s.ui := rfl
@[simp] theorem State.setIp_uiValid (v : Word) : (s.setIp v).uiValid = s.uiValid := rfl
@[simp] theorem State.setIp_pid (v : Word) : (s.setIp v).pid = s.pid := rfl
@[simp] theorem State.setIp_pidKnown (v : Word) : (s.setIp v).pidKnown = s.pidKnown := rfl
@[simp] theorem State.setIp_ptAddr (v : Word) : (s.setIp v).ptAddr = s.ptAddr := rfl
@[simp] theorem State.setIp_pxId (v : Word) : (s.setIp v).pxId = s.pxId := rfl
@[simp] theorem State.setIp_pxIp (v : Word) : (s.setIp v).pxIp = s.pxIp := rfl
@[simp] theorem State.setIp_pxInfo0 (v : Word) : (s.setIp v).pxInfo0 = s.pxInfo0 := rfl
@[simp] theorem State.setIp_pxInfo1 (v : Word) : (s.setIp v).pxInfo1 = s.pxInfo1 := rfl
@[simp] theorem State.setIp_pxInfo2 (v : Word) : (s.setIp v).pxInfo2 = s.pxInfo2 := rfl
@[simp] theorem State.setIp_priv (v : Word) : (s.setIp v).priv = s.priv := rfl
@[simp] theorem State.setIp_intEnable (v : Word) : (s.setIp v).intEnable = s.intEnable := rfl
@[simp] theorem State.setIp_paging (v : Word) : (s.setIp v).paging = s.paging := rfl
@[simp] theorem State.setIp_ptBase (v : Word) : (s.setIp v).ptBase = s.ptBase := rfl
@[simp] theorem State.setIp_ptCache (v : Word) : (s.setIp v).ptCache = s.ptCache := rfl
@[simp] theorem State.setIp_ptKnown (v : Word) : (s.setIp v).ptKnown = s.ptKnown := rfl
@[simp] theorem State.setIp_iht (v : Word) : (s.setIp v).iht = s.iht := rfl
@[simp] theorem State.setIp_savedUi (v : Word) : (s.setIp v).savedUi = s.savedUi := rfl
@[simp] theorem State.setIp_savedUiValid (v : Word) : (s.setIp v).savedUiValid = s.savedUiValid := rfl
@[simp] theorem State.setIp_savedPriv (v : Word) : (s.setIp v).savedPriv = s.savedPriv := rfl
@[simp] theorem State.setIp_run (v : Word) : (s.setIp v).run = s.run := rfl
@[simp] theorem State.setIp_pendingTimer (v : Word) : (s.setIp v).pendingTimer = s.pendingTimer := rfl
@[simp] theorem State.setIp_pendingIo (v : Word) : (s.setIp v).pendingIo = s.pendingIo := rfl
@[simp] theorem State.setIp_arrivals (v : Word) : (s.setIp v).arrivals = s.arrivals := rfl
@[simp] theorem State.setIp_portInputs (v : Word) : (s.setIp v).portInputs = s.portInputs := rfl
@[simp] theorem State.setIp_portTrace (v : Word) : (s.setIp v).portTrace = s.portTrace := rfl
@[simp] theorem State.setIp_mem (v : Word) : (s.setIp v).mem = s.mem := rfl
@[simp] theorem State.setIp_stale (v : Word) : (s.setIp v).stale = s.stale := rfl
@[simp] theorem State.setIp_draws (v : Word) : (s.setIp v).draws = s.draws := rfl
@[simp] theorem State.setIp_cfg (v : Word) : (s.setIp v).cfg = s.cfg := rfl

/-! ### `State.setSp` -/

@[simp] theorem State.setSp_regs (v : Word) : (s.setSp v).regs = s.regs := rfl
@[simp] theorem State.setSp_ip (v : Word) : (s.setSp v).ip = s.ip := rfl
@[simp] theorem State.setSp_lr (v : Word) : (s.setSp v).lr = s.lr := rfl
@[simp] theorem State.setSp_sp (v : Word) : (s.setSp v).sp = v := rfl
@[simp] theorem State.setSp_ofs (v : Word) : (s.setSp v).ofs = s.ofs := rfl
@[simp] theorem State.setSp_fl (v : Word) : (s.setSp v).fl = s.fl := rfl
@[simp] theorem State.setSp_f1 (v : Word) : (s.setSp v).f1 = s.f1 := rfl
@[simp] theorem State.setSp_f2 (v : Word) : (s.setSp v).f2 = s.f2 := rfl
@[simp] theorem State.setSp_ui (v : Word) : (s.setSp v).ui = s.ui := rfl
@[simp] theorem State.setSp_uiValid (v : Word) : (s.setSp v).uiValid = s.uiValid := rfl
@[simp] theorem State.setSp_pid (v : Word) : (s.setSp v).pid = s.pid := rfl
@[simp] theorem State.setSp_pidKnown (v : Word) : (s.setSp v).pidKnown = s.pidKnown := rfl
@[simp] theorem State.setSp_ptAddr (v : Word) : (s.setSp v).ptAddr = s.ptAddr := rfl
@[simp] theorem State.setSp_pxId (v : Word) : (s.setSp v).pxId = s.pxId := rfl
@[simp] theorem State.setSp_pxIp (v : Word) : (s.setSp v).pxIp = s.pxIp := rfl
@[simp] theorem State.setSp_pxInfo0 (v : Word) : (s.setSp v).pxInfo0 = s.pxInfo0 := rfl
@[simp] theorem State.setSp_pxInfo1 (v : Word) : (s.setSp v).pxInfo1 = s.pxInfo1 := rfl
@[simp] theorem State.setSp_pxInfo2 (v : Word) : (s.setSp v).pxInfo2 = s.pxInfo2 := rfl
@[simp] theorem State.setSp_priv (v : Word) : (s.setSp v).priv = s.priv := rfl
@[simp] theorem State.setSp_intEnable (v : Word) : (s.setSp v).intEnable = s.intEnable := rfl
@[simp] theorem State.setSp_paging (v : Word) : (s.setSp v).paging = s.paging := rfl
@[simp] theorem State.setSp_ptBase (v : Word) : (s.setSp v).ptBase = s.ptBase := rfl
@[simp] theorem State.setSp_ptCache (v : Word) : (s.setSp v).ptCache = s.ptCache := rfl
@[simp] theorem State.setSp_ptKnown (v : Word) : (s.setSp v).ptKnown = s.ptKnown := rfl
@[simp] theorem State.setSp_iht (v : Word) : (s.setSp v).iht = s.iht := rfl
@[simp] theorem State.setSp_savedUi (v : Word) : (s.setSp v).savedUi = s.savedUi := rfl
@[simp] theorem State.setSp_savedUiValid (v : Word) : (s.setSp v).savedUiValid = s.savedUiValid := rfl
@[simp] theorem State.setSp_savedPriv (v : Word) : (s.setSp v).savedPriv = s.savedPriv := rfl
@[simp] theorem State.setSp_run (v : Word) : (s.setSp v).run = s.run := rfl
@[simp] theorem State.setSp_pendingTimer (v : Word) : (s.setSp v).pendingTimer = s.pendingTimer := rfl
@[simp] theorem State.setSp_pendingIo (v : Word) : (s.setSp v).pendingIo = s.pendingIo := rfl
@[simp] theorem State.setSp_arrivals (v : Word) : (s.setSp v).arrivals = s.arrivals := rfl
@[simp] theorem State.setSp_portInputs (v : Word) : (s.setSp v).portInputs = s.portInputs := rfl
@[simp] theorem State.setSp_portTrace (v : Word) : (s.setSp v).portTrace = s.portTrace := rfl
@[simp] theorem State.setSp_mem (v : Word) : (s.setSp v).mem = s.mem := rfl
@[simp] theorem State.setSp_stale (v : Word) : (s.setSp v).stale = s.stale := rfl
@[simp] theorem State.setSp_draws (v : Word) : (s.setSp v).draws = s.draws := rfl
@[simp] theorem State.setSp_cfg (v : Word) : (s.setSp v).cfg = s.cfg := rfl

/-! ### `State.drawn` -/

@[simp] theorem State.drawn_regs (n : Nat) : (s.drawn n).regs = s.regs := rfl
@[simp] theorem State.drawn_ip (n : Nat) : (s.drawn n).ip = s.ip := rfl
@[simp] theorem State.drawn_lr (n : Nat) : (s.drawn n).lr = s.lr := rfl
@[simp] theorem State.drawn_sp (n : Nat) : (s.drawn n).sp = s.sp := rfl
@[simp] theorem State.drawn_ofs (n : Nat) : (s.drawn n).ofs = s.ofs := rfl
@[simp] theorem State.drawn_fl (n : Nat) : (s.drawn n).fl = s.fl := rfl
@[simp] theorem State.drawn_f1 (n : Nat) : (s.drawn n).f1 = s.f1 := rfl
@[simp] theorem State.drawn_f2 (n : Nat) : (s.drawn n).f2 = s.f2 := rfl
@[simp] theorem State.drawn_ui (n : Nat) : (s.drawn n).ui = s.ui := rfl
@[simp] theorem State.drawn_uiValid (n : Nat) : (s.drawn n).uiValid = s.uiValid := rfl
@[simp] theorem State.drawn_pid (n : Nat) : (s.drawn n).pid = s.pid := rfl
@[simp] theorem State.drawn_pidKnown (n : Nat) : (s.drawn n).pidKnown = s.pidKnown := rfl
@[simp] theorem State.drawn_ptAddr (n : Nat) : (s.drawn n).ptAddr = s.ptAddr := rfl
@[simp] theorem State.drawn_pxId (n : Nat) : (s.drawn n).pxId = s.pxId := rfl
@[simp] theorem State.drawn_pxIp (n : Nat) : (s.drawn n).pxIp = s.pxIp := rfl
@[simp] theorem State.drawn_pxInfo0 (n : Nat) : (s.drawn n).pxInfo0 = s.pxInfo0 := rfl
@[simp] theorem State.drawn_pxInfo1 (n : Nat) : (s.drawn n).pxInfo1 = s.pxInfo1 := rfl
@[simp] theorem State.drawn_pxInfo2 (n : Nat) : (s.drawn n).pxInfo2 = s.pxInfo2 := rfl
@[simp] theorem State.drawn_priv (n : Nat) : (s.drawn n).priv = s.priv := rfl
@[simp] theorem State.drawn_intEnable (n : Nat) : (s.drawn n).intEnable = s.intEnable := rfl
@[simp] theorem State.drawn_paging (n : Nat) : (s.drawn n).paging = s.paging := rfl
@[simp] theorem State.drawn_ptBase (n : Nat) : (s.drawn n).ptBase = s.ptBase := rfl
@[simp] theorem State.drawn_ptCache (n : Nat) : (s.drawn n).ptCache = s.ptCache := rfl
@[simp] theorem State.drawn_ptKnown (n : Nat) : (s.drawn n).ptKnown = s.ptKnown := rfl
@[simp] theorem State.drawn_iht (n : Nat) : (s.drawn n).iht = s.iht := rfl
@[simp] theorem State.drawn_savedUi (n : Nat) : (s.drawn n).savedUi = s.savedUi := rfl
@[simp] theorem State.drawn_savedUiValid (n : Nat) : (s.drawn n).savedUiValid = s.savedUiValid := rfl
@[simp] theorem State.drawn_savedPriv (n : Nat) : (s.drawn n).savedPriv = s.savedPriv := rfl
@[simp] theorem State.drawn_run (n : Nat) : (s.drawn n).run = s.run := rfl
@[simp] theorem State.drawn_pendingTimer (n : Nat) : (s.drawn n).pendingTimer = s.pendingTimer := rfl
@[simp] theorem State.drawn_pendingIo (n : Nat) : (s.drawn n).pendingIo = s.pendingIo := rfl
@[simp] theorem State.drawn_arrivals (n : Nat) : (s.drawn n).arrivals = s.arrivals := rfl
@[simp] theorem State.drawn_portInputs (n : Nat) : (s.drawn n).portInputs = s.portInputs := rfl
@[simp] theorem State.drawn_portTrace (n : Nat) : (s.drawn n).portTrace = s.portTrace := rfl
@[simp] theorem State.drawn_mem (n : Nat) : (s.drawn n).mem = s.mem := rfl
@[simp] theorem State.drawn_stale (n : Nat) : (s.drawn n).stale = s.stale := rfl
@[simp] theorem State.drawn_draws (n : Nat) : (s.drawn n).draws = s.draws + n := rfl
@[simp] theorem State.drawn_cfg (n : Nat) : (s.drawn n).cfg = s.cfg := rfl

/-! ### `State.clearUi` -/

@[simp] theorem State.clearUi_regs : (s.clearUi).regs = s.regs := rfl
@[simp] theorem State.clearUi_ip : (s.clearUi).ip = s.ip := rfl
@[simp] theorem State.clearUi_lr : (s.clearUi).lr = s.lr := rfl
@[simp] theorem State.clearUi_sp : (s.clearUi).sp = s.sp := rfl
@[simp] theorem State.clearUi_ofs : (s.clearUi).ofs = s.ofs := rfl
@[simp] theorem State.clearUi_fl : (s.clearUi).fl = s.fl := rfl
@[simp] theorem State.clearUi_f1 : (s.clearUi).f1 = s.f1 := rfl
@[simp] theorem State.clearUi_f2 : (s.clearUi).f2 = s.f2 := rfl
@[simp] theorem State.clearUi_ui : (s.clearUi).ui = 0 := rfl
@[simp] theorem State.clearUi_uiValid : (s.clearUi).uiValid = false := rfl
@[simp] theorem State.clearUi_pid : (s.clearUi).pid = s.pid := rfl
@[simp] theorem State.clearUi_pidKnown : (s.clearUi).pidKnown = s.pidKnown := rfl
@[simp] theorem State.clearUi_ptAddr : (s.clearUi).ptAddr = s.ptAddr := rfl
@[simp] theorem State.clearUi_pxId : (s.clearUi).pxId = s.pxId := rfl
@[simp] theorem State.clearUi_pxIp : (s.clearUi).pxIp = s.pxIp := rfl
@[simp] theorem State.clearUi_pxInfo0 : (s.clearUi).pxInfo0 = s.pxInfo0 := rfl
@[simp] theorem State.clearUi_pxInfo1 : (s.clearUi).pxInfo1 = s.pxInfo1 := rfl
@[simp] theorem State.clearUi_pxInfo2 : (s.clearUi).pxInfo2 = s.pxInfo2 := rfl
@[simp] theorem State.clearUi_priv : (s.clearUi).priv = s.priv := rfl
@[simp] theorem State.clearUi_intEnable : (s.clearUi).intEnable = s.intEnable := rfl
@[simp] theorem State.clearUi_paging : (s.clearUi).paging = s.paging := rfl
@[simp] theorem State.clearUi_ptBase : (s.clearUi).ptBase = s.ptBase := rfl
@[simp] theorem State.clearUi_ptCache : (s.clearUi).ptCache = s.ptCache := rfl
@[simp] theorem State.clearUi_ptKnown : (s.clearUi).ptKnown = s.ptKnown := rfl
@[simp] theorem State.clearUi_iht : (s.clearUi).iht = s.iht := rfl
@[simp] theorem State.clearUi_savedUi : (s.clearUi).savedUi = s.savedUi := rfl
@[simp] theorem State.clearUi_savedUiValid : (s.clearUi).savedUiValid = s.savedUiValid := rfl
@[simp] theorem State.clearUi_savedPriv : (s.clearUi).savedPriv = s.savedPriv := rfl
@[simp] theorem State.clearUi_run : (s.clearUi).run = s.run := rfl
@[simp] theorem State.clearUi_pendingTimer : (s.clearUi).pendingTimer = s.pendingTimer := rfl
@[simp] theorem State.clearUi_pendingIo : (s.clearUi).pendingIo = s.pendingIo := rfl
@[simp] theorem State.clearUi_arrivals : (s.clearUi).arrivals = s.arrivals := rfl
@[simp] theorem State.clearUi_portInputs : (s.clearUi).portInputs = s.portInputs := rfl
@[simp] theorem State.clearUi_portTrace : (s.clearUi).portTrace = s.portTrace := rfl
@[simp] theorem State.clearUi_mem : (s.clearUi).mem = s.mem := rfl
@[simp] theorem State.clearUi_stale : (s.clearUi).stale = s.stale := rfl
@[simp] theorem State.clearUi_draws : (s.clearUi).draws = s.draws := rfl
@[simp] theorem State.clearUi_cfg : (s.clearUi).cfg = s.cfg := rfl

/-! ### `State.enter` -/

@[simp] theorem State.enter_regs (r : IntRecord) : (s.enter r).regs = s.regs := rfl
@[simp] theorem State.enter_ip (r : IntRecord) : (s.enter r).ip = s.iht[r.id.toNat] := rfl
@[simp] theorem State.enter_lr (r : IntRecord) : (s.enter r).lr = s.lr := rfl
@[simp] theorem State.enter_sp (r : IntRecord) : (s.enter r).sp = s.sp := rfl
@[simp] theorem State.enter_ofs (r : IntRecord) : (s.enter r).ofs = s.ofs := rfl
@[simp] theorem State.enter_fl (r : IntRecord) : (s.enter r).fl = s.fl := rfl
@[simp] theorem State.enter_f1 (r : IntRecord) : (s.enter r).f1 = s.f1 := rfl
@[simp] theorem State.enter_f2 (r : IntRecord) : (s.enter r).f2 = s.f2 := rfl
@[simp] theorem State.enter_ui (r : IntRecord) : (s.enter r).ui = 0 := rfl
@[simp] theorem State.enter_uiValid (r : IntRecord) : (s.enter r).uiValid = false := rfl
@[simp] theorem State.enter_pid (r : IntRecord) : (s.enter r).pid = s.pid := rfl
@[simp] theorem State.enter_pidKnown (r : IntRecord) : (s.enter r).pidKnown = s.pidKnown := rfl
@[simp] theorem State.enter_ptAddr (r : IntRecord) : (s.enter r).ptAddr = s.ptAddr := rfl
@[simp] theorem State.enter_pxId (r : IntRecord) : (s.enter r).pxId = r.id.setWidth 16 := rfl
@[simp] theorem State.enter_pxIp (r : IntRecord) : (s.enter r).pxIp = r.ip := rfl
@[simp] theorem State.enter_pxInfo0 (r : IntRecord) : (s.enter r).pxInfo0 = r.info0 := rfl
@[simp] theorem State.enter_pxInfo1 (r : IntRecord) : (s.enter r).pxInfo1 = r.info1 := rfl
@[simp] theorem State.enter_pxInfo2 (r : IntRecord) : (s.enter r).pxInfo2 = r.info2 := rfl
@[simp] theorem State.enter_priv (r : IntRecord) : (s.enter r).priv = .supervisor := rfl
@[simp] theorem State.enter_intEnable (r : IntRecord) : (s.enter r).intEnable = false := rfl
@[simp] theorem State.enter_paging (r : IntRecord) : (s.enter r).paging = s.paging := rfl
@[simp] theorem State.enter_ptBase (r : IntRecord) : (s.enter r).ptBase = s.ptBase := rfl
@[simp] theorem State.enter_ptCache (r : IntRecord) : (s.enter r).ptCache = s.ptCache := rfl
@[simp] theorem State.enter_ptKnown (r : IntRecord) : (s.enter r).ptKnown = s.ptKnown := rfl
@[simp] theorem State.enter_iht (r : IntRecord) : (s.enter r).iht = s.iht := rfl
@[simp] theorem State.enter_savedUi (r : IntRecord) : (s.enter r).savedUi = s.ui := rfl
@[simp] theorem State.enter_savedUiValid (r : IntRecord) : (s.enter r).savedUiValid = s.uiValid := rfl
@[simp] theorem State.enter_savedPriv (r : IntRecord) : (s.enter r).savedPriv = s.priv := rfl
@[simp] theorem State.enter_run (r : IntRecord) : (s.enter r).run = .running := rfl
@[simp] theorem State.enter_pendingTimer (r : IntRecord) : (s.enter r).pendingTimer = s.pendingTimer := rfl
@[simp] theorem State.enter_pendingIo (r : IntRecord) : (s.enter r).pendingIo = s.pendingIo := rfl
@[simp] theorem State.enter_arrivals (r : IntRecord) : (s.enter r).arrivals = s.arrivals := rfl
@[simp] theorem State.enter_portInputs (r : IntRecord) : (s.enter r).portInputs = s.portInputs := rfl
@[simp] theorem State.enter_portTrace (r : IntRecord) : (s.enter r).portTrace = s.portTrace := rfl
@[simp] theorem State.enter_mem (r : IntRecord) : (s.enter r).mem = s.mem := rfl
@[simp] theorem State.enter_stale (r : IntRecord) : (s.enter r).stale = s.stale := rfl
@[simp] theorem State.enter_draws (r : IntRecord) : (s.enter r).draws = s.draws := rfl
@[simp] theorem State.enter_cfg (r : IntRecord) : (s.enter r).cfg = s.cfg := rfl

/-! ### `State.leave` -/

@[simp] theorem State.leave_regs : (s.leave).regs = s.regs := rfl
@[simp] theorem State.leave_ip : (s.leave).ip = s.pxIp := rfl
@[simp] theorem State.leave_lr : (s.leave).lr = s.lr := rfl
@[simp] theorem State.leave_sp : (s.leave).sp = s.sp := rfl
@[simp] theorem State.leave_ofs : (s.leave).ofs = s.ofs := rfl
@[simp] theorem State.leave_fl : (s.leave).fl = s.fl := rfl
@[simp] theorem State.leave_f1 : (s.leave).f1 = s.f1 := rfl
@[simp] theorem State.leave_f2 : (s.leave).f2 = s.f2 := rfl
@[simp] theorem State.leave_ui : (s.leave).ui = s.savedUi := rfl
@[simp] theorem State.leave_uiValid : (s.leave).uiValid = s.savedUiValid := rfl
@[simp] theorem State.leave_pid : (s.leave).pid = s.pid := rfl
@[simp] theorem State.leave_pidKnown : (s.leave).pidKnown = s.pidKnown := rfl
@[simp] theorem State.leave_ptAddr : (s.leave).ptAddr = s.ptAddr := rfl
@[simp] theorem State.leave_pxId : (s.leave).pxId = s.pxId := rfl
@[simp] theorem State.leave_pxIp : (s.leave).pxIp = s.pxIp := rfl
@[simp] theorem State.leave_pxInfo0 : (s.leave).pxInfo0 = s.pxInfo0 := rfl
@[simp] theorem State.leave_pxInfo1 : (s.leave).pxInfo1 = s.pxInfo1 := rfl
@[simp] theorem State.leave_pxInfo2 : (s.leave).pxInfo2 = s.pxInfo2 := rfl
@[simp] theorem State.leave_priv : (s.leave).priv = s.savedPriv := rfl
@[simp] theorem State.leave_intEnable : (s.leave).intEnable = true := rfl
@[simp] theorem State.leave_paging : (s.leave).paging = s.paging := rfl
@[simp] theorem State.leave_ptBase : (s.leave).ptBase = s.ptBase := rfl
@[simp] theorem State.leave_ptCache : (s.leave).ptCache = s.ptCache := rfl
@[simp] theorem State.leave_ptKnown : (s.leave).ptKnown = s.ptKnown := rfl
@[simp] theorem State.leave_iht : (s.leave).iht = s.iht := rfl
@[simp] theorem State.leave_savedUi : (s.leave).savedUi = s.savedUi := rfl
@[simp] theorem State.leave_savedUiValid : (s.leave).savedUiValid = s.savedUiValid := rfl
@[simp] theorem State.leave_savedPriv : (s.leave).savedPriv = s.savedPriv := rfl
@[simp] theorem State.leave_run : (s.leave).run = s.run := rfl
@[simp] theorem State.leave_pendingTimer : (s.leave).pendingTimer = s.pendingTimer := rfl
@[simp] theorem State.leave_pendingIo : (s.leave).pendingIo = s.pendingIo := rfl
@[simp] theorem State.leave_arrivals : (s.leave).arrivals = s.arrivals := rfl
@[simp] theorem State.leave_portInputs : (s.leave).portInputs = s.portInputs := rfl
@[simp] theorem State.leave_portTrace : (s.leave).portTrace = s.portTrace := rfl
@[simp] theorem State.leave_mem : (s.leave).mem = s.mem := rfl
@[simp] theorem State.leave_stale : (s.leave).stale = s.stale := rfl
@[simp] theorem State.leave_draws : (s.leave).draws = s.draws := rfl
@[simp] theorem State.leave_cfg : (s.leave).cfg = s.cfg := rfl

/-! ### `State.store` -/

@[simp] theorem State.store_regs (pa : Nat) (v : Word) : (s.store pa v).regs = s.regs := rfl
@[simp] theorem State.store_ip (pa : Nat) (v : Word) : (s.store pa v).ip = s.ip := rfl
@[simp] theorem State.store_lr (pa : Nat) (v : Word) : (s.store pa v).lr = s.lr := rfl
@[simp] theorem State.store_sp (pa : Nat) (v : Word) : (s.store pa v).sp = s.sp := rfl
@[simp] theorem State.store_ofs (pa : Nat) (v : Word) : (s.store pa v).ofs = s.ofs := rfl
@[simp] theorem State.store_fl (pa : Nat) (v : Word) : (s.store pa v).fl = s.fl := rfl
@[simp] theorem State.store_f1 (pa : Nat) (v : Word) : (s.store pa v).f1 = s.f1 := rfl
@[simp] theorem State.store_f2 (pa : Nat) (v : Word) : (s.store pa v).f2 = s.f2 := rfl
@[simp] theorem State.store_ui (pa : Nat) (v : Word) : (s.store pa v).ui = s.ui := rfl
@[simp] theorem State.store_uiValid (pa : Nat) (v : Word) : (s.store pa v).uiValid = s.uiValid := rfl
@[simp] theorem State.store_pid (pa : Nat) (v : Word) : (s.store pa v).pid = s.pid := rfl
@[simp] theorem State.store_pidKnown (pa : Nat) (v : Word) : (s.store pa v).pidKnown = s.pidKnown := rfl
@[simp] theorem State.store_ptAddr (pa : Nat) (v : Word) : (s.store pa v).ptAddr = s.ptAddr := rfl
@[simp] theorem State.store_pxId (pa : Nat) (v : Word) : (s.store pa v).pxId = s.pxId := rfl
@[simp] theorem State.store_pxIp (pa : Nat) (v : Word) : (s.store pa v).pxIp = s.pxIp := rfl
@[simp] theorem State.store_pxInfo0 (pa : Nat) (v : Word) : (s.store pa v).pxInfo0 = s.pxInfo0 := rfl
@[simp] theorem State.store_pxInfo1 (pa : Nat) (v : Word) : (s.store pa v).pxInfo1 = s.pxInfo1 := rfl
@[simp] theorem State.store_pxInfo2 (pa : Nat) (v : Word) : (s.store pa v).pxInfo2 = s.pxInfo2 := rfl
@[simp] theorem State.store_priv (pa : Nat) (v : Word) : (s.store pa v).priv = s.priv := rfl
@[simp] theorem State.store_intEnable (pa : Nat) (v : Word) : (s.store pa v).intEnable = s.intEnable := rfl
@[simp] theorem State.store_paging (pa : Nat) (v : Word) : (s.store pa v).paging = s.paging := rfl
@[simp] theorem State.store_ptBase (pa : Nat) (v : Word) : (s.store pa v).ptBase = s.ptBase := rfl
@[simp] theorem State.store_ptCache (pa : Nat) (v : Word) : (s.store pa v).ptCache = s.ptCache := rfl
@[simp] theorem State.store_ptKnown (pa : Nat) (v : Word) : (s.store pa v).ptKnown = s.ptKnown := rfl
@[simp] theorem State.store_iht (pa : Nat) (v : Word) : (s.store pa v).iht = s.iht := rfl
@[simp] theorem State.store_savedUi (pa : Nat) (v : Word) : (s.store pa v).savedUi = s.savedUi := rfl
@[simp] theorem State.store_savedUiValid (pa : Nat) (v : Word) :
    (s.store pa v).savedUiValid = s.savedUiValid := rfl
@[simp] theorem State.store_savedPriv (pa : Nat) (v : Word) : (s.store pa v).savedPriv = s.savedPriv := rfl
@[simp] theorem State.store_run (pa : Nat) (v : Word) : (s.store pa v).run = s.run := rfl
@[simp] theorem State.store_pendingTimer (pa : Nat) (v : Word) :
    (s.store pa v).pendingTimer = s.pendingTimer := rfl
@[simp] theorem State.store_pendingIo (pa : Nat) (v : Word) : (s.store pa v).pendingIo = s.pendingIo := rfl
@[simp] theorem State.store_arrivals (pa : Nat) (v : Word) : (s.store pa v).arrivals = s.arrivals := rfl
@[simp] theorem State.store_portInputs (pa : Nat) (v : Word) : (s.store pa v).portInputs = s.portInputs := rfl
@[simp] theorem State.store_portTrace (pa : Nat) (v : Word) : (s.store pa v).portTrace = s.portTrace := rfl
@[simp] theorem State.store_mem (pa : Nat) (v : Word) : (s.store pa v).mem = writeWord s.mem pa v := rfl
@[simp] theorem State.store_stale (pa : Nat) (v : Word) : (s.store pa v).stale = noteStore s pa := rfl
@[simp] theorem State.store_draws (pa : Nat) (v : Word) : (s.store pa v).draws = s.draws := rfl
@[simp] theorem State.store_cfg (pa : Nat) (v : Word) : (s.store pa v).cfg = s.cfg := rfl

/-! ### `State.portWrite` -/

@[simp] theorem State.portWrite_regs (p v : Word) : (s.portWrite p v).regs = s.regs := rfl
@[simp] theorem State.portWrite_ip (p v : Word) : (s.portWrite p v).ip = s.ip := rfl
@[simp] theorem State.portWrite_lr (p v : Word) : (s.portWrite p v).lr = s.lr := rfl
@[simp] theorem State.portWrite_sp (p v : Word) : (s.portWrite p v).sp = s.sp := rfl
@[simp] theorem State.portWrite_ofs (p v : Word) : (s.portWrite p v).ofs = s.ofs := rfl
@[simp] theorem State.portWrite_fl (p v : Word) : (s.portWrite p v).fl = s.fl := rfl
@[simp] theorem State.portWrite_f1 (p v : Word) : (s.portWrite p v).f1 = s.f1 := rfl
@[simp] theorem State.portWrite_f2 (p v : Word) : (s.portWrite p v).f2 = s.f2 := rfl
@[simp] theorem State.portWrite_ui (p v : Word) : (s.portWrite p v).ui = s.ui := rfl
@[simp] theorem State.portWrite_uiValid (p v : Word) : (s.portWrite p v).uiValid = s.uiValid := rfl
@[simp] theorem State.portWrite_pid (p v : Word) : (s.portWrite p v).pid = s.pid := rfl
@[simp] theorem State.portWrite_pidKnown (p v : Word) : (s.portWrite p v).pidKnown = s.pidKnown := rfl
@[simp] theorem State.portWrite_ptAddr (p v : Word) : (s.portWrite p v).ptAddr = s.ptAddr := rfl
@[simp] theorem State.portWrite_pxId (p v : Word) : (s.portWrite p v).pxId = s.pxId := rfl
@[simp] theorem State.portWrite_pxIp (p v : Word) : (s.portWrite p v).pxIp = s.pxIp := rfl
@[simp] theorem State.portWrite_pxInfo0 (p v : Word) : (s.portWrite p v).pxInfo0 = s.pxInfo0 := rfl
@[simp] theorem State.portWrite_pxInfo1 (p v : Word) : (s.portWrite p v).pxInfo1 = s.pxInfo1 := rfl
@[simp] theorem State.portWrite_pxInfo2 (p v : Word) : (s.portWrite p v).pxInfo2 = s.pxInfo2 := rfl
@[simp] theorem State.portWrite_priv (p v : Word) : (s.portWrite p v).priv = s.priv := rfl
@[simp] theorem State.portWrite_intEnable (p v : Word) : (s.portWrite p v).intEnable = s.intEnable := rfl
@[simp] theorem State.portWrite_paging (p v : Word) : (s.portWrite p v).paging = s.paging := rfl
@[simp] theorem State.portWrite_ptBase (p v : Word) : (s.portWrite p v).ptBase = s.ptBase := rfl
@[simp] theorem State.portWrite_ptCache (p v : Word) : (s.portWrite p v).ptCache = s.ptCache := rfl
@[simp] theorem State.portWrite_ptKnown (p v : Word) : (s.portWrite p v).ptKnown = s.ptKnown := rfl
@[simp] theorem State.portWrite_iht (p v : Word) : (s.portWrite p v).iht = s.iht := rfl
@[simp] theorem State.portWrite_savedUi (p v : Word) : (s.portWrite p v).savedUi = s.savedUi := rfl
@[simp] theorem State.portWrite_savedUiValid (p v : Word) :
    (s.portWrite p v).savedUiValid = s.savedUiValid := rfl
@[simp] theorem State.portWrite_savedPriv (p v : Word) : (s.portWrite p v).savedPriv = s.savedPriv := rfl
@[simp] theorem State.portWrite_run (p v : Word) : (s.portWrite p v).run = s.run := rfl
@[simp] theorem State.portWrite_pendingTimer (p v : Word) :
    (s.portWrite p v).pendingTimer = s.pendingTimer := rfl
@[simp] theorem State.portWrite_pendingIo (p v : Word) : (s.portWrite p v).pendingIo = s.pendingIo := rfl
@[simp] theorem State.portWrite_arrivals (p v : Word) : (s.portWrite p v).arrivals = s.arrivals := rfl
@[simp] theorem State.portWrite_portInputs (p v : Word) : (s.portWrite p v).portInputs = s.portInputs := rfl
@[simp] theorem State.portWrite_portTrace (p v : Word) :
    (s.portWrite p v).portTrace = s.portTrace ++ [.write p v] := rfl
@[simp] theorem State.portWrite_mem (p v : Word) : (s.portWrite p v).mem = s.mem := rfl
@[simp] theorem State.portWrite_stale (p v : Word) : (s.portWrite p v).stale = s.stale := rfl
@[simp] theorem State.portWrite_draws (p v : Word) : (s.portWrite p v).draws = s.draws := rfl
@[simp] theorem State.portWrite_cfg (p v : Word) : (s.portWrite p v).cfg = s.cfg := rfl

/-! ### `State.reloadIht` -/

@[simp] theorem State.reloadIht_regs : (s.reloadIht).regs = s.regs := by simp only [State.reloadIht]
@[simp] theorem State.reloadIht_ip : (s.reloadIht).ip = s.ip := by simp only [State.reloadIht]
@[simp] theorem State.reloadIht_lr : (s.reloadIht).lr = s.lr := by simp only [State.reloadIht]
@[simp] theorem State.reloadIht_sp : (s.reloadIht).sp = s.sp := by simp only [State.reloadIht]
@[simp] theorem State.reloadIht_ofs : (s.reloadIht).ofs = s.ofs := by simp only [State.reloadIht]
@[simp] theorem State.reloadIht_fl : (s.reloadIht).fl = s.fl := by simp only [State.reloadIht]
@[simp] theorem State.reloadIht_f1 : (s.reloadIht).f1 = s.f1 := by simp only [State.reloadIht]
@[simp] theorem State.reloadIht_f2 : (s.reloadIht).f2 = s.f2 := by simp only [State.reloadIht]
@[simp] theorem State.reloadIht_ui : (s.reloadIht).ui = s.ui := by simp only [State.reloadIht]
@[simp] theorem State.reloadIht_uiValid : (s.reloadIht).uiValid = s.uiValid := by simp only [State.reloadIht]
@[simp] theorem State.reloadIht_pid : (s.reloadIht).pid = s.pid := by simp only [State.reloadIht]
@[simp] theorem State.reloadIht_pidKnown : (s.reloadIht).pidKnown = s.pidKnown := by simp only [State.reloadIht]
@[simp] theorem State.reloadIht_ptAddr : (s.reloadIht).ptAddr = s.ptAddr := by simp only [State.reloadIht]
@[simp] theorem State.reloadIht_pxId : (s.reloadIht).pxId = s.pxId := by simp only [State.reloadIht]
@[simp] theorem State.reloadIht_pxIp : (s.reloadIht).pxIp = s.pxIp := by simp only [State.reloadIht]
@[simp] theorem State.reloadIht_pxInfo0 : (s.reloadIht).pxInfo0 = s.pxInfo0 := by simp only [State.reloadIht]
@[simp] theorem State.reloadIht_pxInfo1 : (s.reloadIht).pxInfo1 = s.pxInfo1 := by simp only [State.reloadIht]
@[simp] theorem State.reloadIht_pxInfo2 : (s.reloadIht).pxInfo2 = s.pxInfo2 := by simp only [State.reloadIht]
@[simp] theorem State.reloadIht_priv : (s.reloadIht).priv = s.priv := by simp only [State.reloadIht]
@[simp] theorem State.reloadIht_intEnable :
    (s.reloadIht).intEnable = s.intEnable := by simp only [State.reloadIht]
@[simp] theorem State.reloadIht_paging : (s.reloadIht).paging = s.paging := by simp only [State.reloadIht]
@[simp] theorem State.reloadIht_ptBase : (s.reloadIht).ptBase = s.ptBase := by simp only [State.reloadIht]
@[simp] theorem State.reloadIht_ptCache : (s.reloadIht).ptCache = s.ptCache := by simp only [State.reloadIht]
@[simp] theorem State.reloadIht_ptKnown : (s.reloadIht).ptKnown = s.ptKnown := by simp only [State.reloadIht]
@[simp] theorem State.reloadIht_iht :
    (s.reloadIht).iht = Vector.ofFn (fun n : Fin 256 => readWord s.mem (0x0100 + n.val)) := by simp only [State.reloadIht]
@[simp] theorem State.reloadIht_savedUi : (s.reloadIht).savedUi = s.savedUi := by simp only [State.reloadIht]
@[simp] theorem State.reloadIht_savedUiValid :
    (s.reloadIht).savedUiValid = s.savedUiValid := by simp only [State.reloadIht]
@[simp] theorem State.reloadIht_savedPriv :
    (s.reloadIht).savedPriv = s.savedPriv := by simp only [State.reloadIht]
@[simp] theorem State.reloadIht_run : (s.reloadIht).run = s.run := by simp only [State.reloadIht]
@[simp] theorem State.reloadIht_pendingTimer :
    (s.reloadIht).pendingTimer = s.pendingTimer := by simp only [State.reloadIht]
@[simp] theorem State.reloadIht_pendingIo :
    (s.reloadIht).pendingIo = s.pendingIo := by simp only [State.reloadIht]
@[simp] theorem State.reloadIht_arrivals : (s.reloadIht).arrivals = s.arrivals := by simp only [State.reloadIht]
@[simp] theorem State.reloadIht_portInputs :
    (s.reloadIht).portInputs = s.portInputs := by simp only [State.reloadIht]
@[simp] theorem State.reloadIht_portTrace :
    (s.reloadIht).portTrace = s.portTrace := by simp only [State.reloadIht]
@[simp] theorem State.reloadIht_mem : (s.reloadIht).mem = s.mem := by simp only [State.reloadIht]
@[simp] theorem State.reloadIht_stale : (s.reloadIht).stale = s.stale := by simp only [State.reloadIht]
@[simp] theorem State.reloadIht_draws : (s.reloadIht).draws = s.draws := by simp only [State.reloadIht]
@[simp] theorem State.reloadIht_cfg : (s.reloadIht).cfg = s.cfg := by simp only [State.reloadIht]

/-! ### `State.reloadPid` -/

@[simp] theorem State.reloadPid_regs : (s.reloadPid).regs = s.regs := rfl
@[simp] theorem State.reloadPid_ip : (s.reloadPid).ip = s.ip := rfl
@[simp] theorem State.reloadPid_lr : (s.reloadPid).lr = s.lr := rfl
@[simp] theorem State.reloadPid_sp : (s.reloadPid).sp = s.sp := rfl
@[simp] theorem State.reloadPid_ofs : (s.reloadPid).ofs = s.ofs := rfl
@[simp] theorem State.reloadPid_fl : (s.reloadPid).fl = s.fl := rfl
@[simp] theorem State.reloadPid_f1 : (s.reloadPid).f1 = s.f1 := rfl
@[simp] theorem State.reloadPid_f2 : (s.reloadPid).f2 = s.f2 := rfl
@[simp] theorem State.reloadPid_ui : (s.reloadPid).ui = s.ui := rfl
@[simp] theorem State.reloadPid_uiValid : (s.reloadPid).uiValid = s.uiValid := rfl
@[simp] theorem State.reloadPid_pid : (s.reloadPid).pid = readWord s.mem 0x00FF := rfl
@[simp] theorem State.reloadPid_pidKnown : (s.reloadPid).pidKnown = true := rfl
@[simp] theorem State.reloadPid_ptAddr : (s.reloadPid).ptAddr = s.ptAddr := rfl
@[simp] theorem State.reloadPid_pxId : (s.reloadPid).pxId = s.pxId := rfl
@[simp] theorem State.reloadPid_pxIp : (s.reloadPid).pxIp = s.pxIp := rfl
@[simp] theorem State.reloadPid_pxInfo0 : (s.reloadPid).pxInfo0 = s.pxInfo0 := rfl
@[simp] theorem State.reloadPid_pxInfo1 : (s.reloadPid).pxInfo1 = s.pxInfo1 := rfl
@[simp] theorem State.reloadPid_pxInfo2 : (s.reloadPid).pxInfo2 = s.pxInfo2 := rfl
@[simp] theorem State.reloadPid_priv : (s.reloadPid).priv = s.priv := rfl
@[simp] theorem State.reloadPid_intEnable : (s.reloadPid).intEnable = s.intEnable := rfl
@[simp] theorem State.reloadPid_paging : (s.reloadPid).paging = true := rfl
@[simp] theorem State.reloadPid_ptBase : (s.reloadPid).ptBase = s.ptBase := rfl
@[simp] theorem State.reloadPid_ptCache : (s.reloadPid).ptCache = s.ptCache := rfl
@[simp] theorem State.reloadPid_ptKnown : (s.reloadPid).ptKnown = false := rfl
@[simp] theorem State.reloadPid_iht : (s.reloadPid).iht = s.iht := rfl
@[simp] theorem State.reloadPid_savedUi : (s.reloadPid).savedUi = s.savedUi := rfl
@[simp] theorem State.reloadPid_savedUiValid : (s.reloadPid).savedUiValid = s.savedUiValid := rfl
@[simp] theorem State.reloadPid_savedPriv : (s.reloadPid).savedPriv = s.savedPriv := rfl
@[simp] theorem State.reloadPid_run : (s.reloadPid).run = s.run := rfl
@[simp] theorem State.reloadPid_pendingTimer : (s.reloadPid).pendingTimer = s.pendingTimer := rfl
@[simp] theorem State.reloadPid_pendingIo : (s.reloadPid).pendingIo = s.pendingIo := rfl
@[simp] theorem State.reloadPid_arrivals : (s.reloadPid).arrivals = s.arrivals := rfl
@[simp] theorem State.reloadPid_portInputs : (s.reloadPid).portInputs = s.portInputs := rfl
@[simp] theorem State.reloadPid_portTrace : (s.reloadPid).portTrace = s.portTrace := rfl
@[simp] theorem State.reloadPid_mem : (s.reloadPid).mem = s.mem := rfl
@[simp] theorem State.reloadPid_stale : (s.reloadPid).stale = s.stale := rfl
@[simp] theorem State.reloadPid_draws : (s.reloadPid).draws = s.draws := rfl
@[simp] theorem State.reloadPid_cfg : (s.reloadPid).cfg = s.cfg := rfl

/-! ### `State.flushPt` -/

@[simp] theorem State.flushPt_regs : (s.flushPt).regs = s.regs := rfl
@[simp] theorem State.flushPt_ip : (s.flushPt).ip = s.ip := rfl
@[simp] theorem State.flushPt_lr : (s.flushPt).lr = s.lr := rfl
@[simp] theorem State.flushPt_sp : (s.flushPt).sp = s.sp := rfl
@[simp] theorem State.flushPt_ofs : (s.flushPt).ofs = s.ofs := rfl
@[simp] theorem State.flushPt_fl : (s.flushPt).fl = s.fl := rfl
@[simp] theorem State.flushPt_f1 : (s.flushPt).f1 = s.f1 := rfl
@[simp] theorem State.flushPt_f2 : (s.flushPt).f2 = s.f2 := rfl
@[simp] theorem State.flushPt_ui : (s.flushPt).ui = s.ui := rfl
@[simp] theorem State.flushPt_uiValid : (s.flushPt).uiValid = s.uiValid := rfl
@[simp] theorem State.flushPt_pid : (s.flushPt).pid = s.pid := rfl
@[simp] theorem State.flushPt_pidKnown : (s.flushPt).pidKnown = s.pidKnown := rfl
@[simp] theorem State.flushPt_ptAddr : (s.flushPt).ptAddr = s.ptAddr := rfl
@[simp] theorem State.flushPt_pxId : (s.flushPt).pxId = s.pxId := rfl
@[simp] theorem State.flushPt_pxIp : (s.flushPt).pxIp = s.pxIp := rfl
@[simp] theorem State.flushPt_pxInfo0 : (s.flushPt).pxInfo0 = s.pxInfo0 := rfl
@[simp] theorem State.flushPt_pxInfo1 : (s.flushPt).pxInfo1 = s.pxInfo1 := rfl
@[simp] theorem State.flushPt_pxInfo2 : (s.flushPt).pxInfo2 = s.pxInfo2 := rfl
@[simp] theorem State.flushPt_priv : (s.flushPt).priv = s.priv := rfl
@[simp] theorem State.flushPt_intEnable : (s.flushPt).intEnable = s.intEnable := rfl
@[simp] theorem State.flushPt_paging : (s.flushPt).paging = true := rfl
@[simp] theorem State.flushPt_ptBase : (s.flushPt).ptBase = s.ptAddr := rfl
@[simp] theorem State.flushPt_ptCache :
    (s.flushPt).ptCache = Vector.ofFn (fun p : Fin 32 => readWord s.mem (s.ptAddr.toNat + p.val)) := rfl
@[simp] theorem State.flushPt_ptKnown : (s.flushPt).ptKnown = true := rfl
@[simp] theorem State.flushPt_iht : (s.flushPt).iht = s.iht := rfl
@[simp] theorem State.flushPt_savedUi : (s.flushPt).savedUi = s.savedUi := rfl
@[simp] theorem State.flushPt_savedUiValid : (s.flushPt).savedUiValid = s.savedUiValid := rfl
@[simp] theorem State.flushPt_savedPriv : (s.flushPt).savedPriv = s.savedPriv := rfl
@[simp] theorem State.flushPt_run : (s.flushPt).run = s.run := rfl
@[simp] theorem State.flushPt_pendingTimer : (s.flushPt).pendingTimer = s.pendingTimer := rfl
@[simp] theorem State.flushPt_pendingIo : (s.flushPt).pendingIo = s.pendingIo := rfl
@[simp] theorem State.flushPt_arrivals : (s.flushPt).arrivals = s.arrivals := rfl
@[simp] theorem State.flushPt_portInputs : (s.flushPt).portInputs = s.portInputs := rfl
@[simp] theorem State.flushPt_portTrace : (s.flushPt).portTrace = s.portTrace := rfl
@[simp] theorem State.flushPt_mem : (s.flushPt).mem = s.mem := rfl
@[simp] theorem State.flushPt_stale : (s.flushPt).stale = s.stale := rfl
@[simp] theorem State.flushPt_draws : (s.flushPt).draws = s.draws := rfl
@[simp] theorem State.flushPt_cfg : (s.flushPt).cfg = s.cfg := rfl

/-! ### `State.setIntEnable` -/

@[simp] theorem State.setIntEnable_regs (v : Word) : (s.setIntEnable v).regs = s.regs := rfl
@[simp] theorem State.setIntEnable_ip (v : Word) : (s.setIntEnable v).ip = s.ip := rfl
@[simp] theorem State.setIntEnable_lr (v : Word) : (s.setIntEnable v).lr = s.lr := rfl
@[simp] theorem State.setIntEnable_sp (v : Word) : (s.setIntEnable v).sp = s.sp := rfl
@[simp] theorem State.setIntEnable_ofs (v : Word) : (s.setIntEnable v).ofs = s.ofs := rfl
@[simp] theorem State.setIntEnable_fl (v : Word) : (s.setIntEnable v).fl = s.fl := rfl
@[simp] theorem State.setIntEnable_f1 (v : Word) : (s.setIntEnable v).f1 = s.f1 := rfl
@[simp] theorem State.setIntEnable_f2 (v : Word) : (s.setIntEnable v).f2 = s.f2 := rfl
@[simp] theorem State.setIntEnable_ui (v : Word) : (s.setIntEnable v).ui = s.ui := rfl
@[simp] theorem State.setIntEnable_uiValid (v : Word) : (s.setIntEnable v).uiValid = s.uiValid := rfl
@[simp] theorem State.setIntEnable_pid (v : Word) : (s.setIntEnable v).pid = s.pid := rfl
@[simp] theorem State.setIntEnable_pidKnown (v : Word) : (s.setIntEnable v).pidKnown = s.pidKnown := rfl
@[simp] theorem State.setIntEnable_ptAddr (v : Word) : (s.setIntEnable v).ptAddr = s.ptAddr := rfl
@[simp] theorem State.setIntEnable_pxId (v : Word) : (s.setIntEnable v).pxId = s.pxId := rfl
@[simp] theorem State.setIntEnable_pxIp (v : Word) : (s.setIntEnable v).pxIp = s.pxIp := rfl
@[simp] theorem State.setIntEnable_pxInfo0 (v : Word) : (s.setIntEnable v).pxInfo0 = s.pxInfo0 := rfl
@[simp] theorem State.setIntEnable_pxInfo1 (v : Word) : (s.setIntEnable v).pxInfo1 = s.pxInfo1 := rfl
@[simp] theorem State.setIntEnable_pxInfo2 (v : Word) : (s.setIntEnable v).pxInfo2 = s.pxInfo2 := rfl
@[simp] theorem State.setIntEnable_priv (v : Word) : (s.setIntEnable v).priv = s.priv := rfl
@[simp] theorem State.setIntEnable_intEnable (v : Word) :
    (s.setIntEnable v).intEnable = if v.getLsbD 5 then false else if v.getLsbD 4 then true else s.intEnable := rfl
@[simp] theorem State.setIntEnable_paging (v : Word) : (s.setIntEnable v).paging = s.paging := rfl
@[simp] theorem State.setIntEnable_ptBase (v : Word) : (s.setIntEnable v).ptBase = s.ptBase := rfl
@[simp] theorem State.setIntEnable_ptCache (v : Word) : (s.setIntEnable v).ptCache = s.ptCache := rfl
@[simp] theorem State.setIntEnable_ptKnown (v : Word) : (s.setIntEnable v).ptKnown = s.ptKnown := rfl
@[simp] theorem State.setIntEnable_iht (v : Word) : (s.setIntEnable v).iht = s.iht := rfl
@[simp] theorem State.setIntEnable_savedUi (v : Word) : (s.setIntEnable v).savedUi = s.savedUi := rfl
@[simp] theorem State.setIntEnable_savedUiValid (v : Word) :
    (s.setIntEnable v).savedUiValid = s.savedUiValid := rfl
@[simp] theorem State.setIntEnable_savedPriv (v : Word) : (s.setIntEnable v).savedPriv = s.savedPriv := rfl
@[simp] theorem State.setIntEnable_run (v : Word) : (s.setIntEnable v).run = s.run := rfl
@[simp] theorem State.setIntEnable_pendingTimer (v : Word) :
    (s.setIntEnable v).pendingTimer = s.pendingTimer := rfl
@[simp] theorem State.setIntEnable_pendingIo (v : Word) : (s.setIntEnable v).pendingIo = s.pendingIo := rfl
@[simp] theorem State.setIntEnable_arrivals (v : Word) : (s.setIntEnable v).arrivals = s.arrivals := rfl
@[simp] theorem State.setIntEnable_portInputs (v : Word) : (s.setIntEnable v).portInputs = s.portInputs := rfl
@[simp] theorem State.setIntEnable_portTrace (v : Word) : (s.setIntEnable v).portTrace = s.portTrace := rfl
@[simp] theorem State.setIntEnable_mem (v : Word) : (s.setIntEnable v).mem = s.mem := rfl
@[simp] theorem State.setIntEnable_stale (v : Word) : (s.setIntEnable v).stale = s.stale := rfl
@[simp] theorem State.setIntEnable_draws (v : Word) : (s.setIntEnable v).draws = s.draws := rfl
@[simp] theorem State.setIntEnable_cfg (v : Word) : (s.setIntEnable v).cfg = s.cfg := rfl

/-! ### `State.lowerPriv` -/

@[simp] theorem State.lowerPriv_regs : (s.lowerPriv).regs = s.regs := rfl
@[simp] theorem State.lowerPriv_ip : (s.lowerPriv).ip = s.ip := rfl
@[simp] theorem State.lowerPriv_lr : (s.lowerPriv).lr = s.lr := rfl
@[simp] theorem State.lowerPriv_sp : (s.lowerPriv).sp = s.sp := rfl
@[simp] theorem State.lowerPriv_ofs : (s.lowerPriv).ofs = s.ofs := rfl
@[simp] theorem State.lowerPriv_fl : (s.lowerPriv).fl = s.fl := rfl
@[simp] theorem State.lowerPriv_f1 : (s.lowerPriv).f1 = s.f1 := rfl
@[simp] theorem State.lowerPriv_f2 : (s.lowerPriv).f2 = s.f2 := rfl
@[simp] theorem State.lowerPriv_ui : (s.lowerPriv).ui = s.ui := rfl
@[simp] theorem State.lowerPriv_uiValid : (s.lowerPriv).uiValid = s.uiValid := rfl
@[simp] theorem State.lowerPriv_pid : (s.lowerPriv).pid = s.pid := rfl
@[simp] theorem State.lowerPriv_pidKnown : (s.lowerPriv).pidKnown = s.pidKnown := rfl
@[simp] theorem State.lowerPriv_ptAddr : (s.lowerPriv).ptAddr = s.ptAddr := rfl
@[simp] theorem State.lowerPriv_pxId : (s.lowerPriv).pxId = s.pxId := rfl
@[simp] theorem State.lowerPriv_pxIp : (s.lowerPriv).pxIp = s.pxIp := rfl
@[simp] theorem State.lowerPriv_pxInfo0 : (s.lowerPriv).pxInfo0 = s.pxInfo0 := rfl
@[simp] theorem State.lowerPriv_pxInfo1 : (s.lowerPriv).pxInfo1 = s.pxInfo1 := rfl
@[simp] theorem State.lowerPriv_pxInfo2 : (s.lowerPriv).pxInfo2 = s.pxInfo2 := rfl
@[simp] theorem State.lowerPriv_priv : (s.lowerPriv).priv = .user := rfl
@[simp] theorem State.lowerPriv_intEnable : (s.lowerPriv).intEnable = s.intEnable := rfl
@[simp] theorem State.lowerPriv_paging : (s.lowerPriv).paging = s.paging := rfl
@[simp] theorem State.lowerPriv_ptBase : (s.lowerPriv).ptBase = s.ptBase := rfl
@[simp] theorem State.lowerPriv_ptCache : (s.lowerPriv).ptCache = s.ptCache := rfl
@[simp] theorem State.lowerPriv_ptKnown : (s.lowerPriv).ptKnown = s.ptKnown := rfl
@[simp] theorem State.lowerPriv_iht : (s.lowerPriv).iht = s.iht := rfl
@[simp] theorem State.lowerPriv_savedUi : (s.lowerPriv).savedUi = s.savedUi := rfl
@[simp] theorem State.lowerPriv_savedUiValid : (s.lowerPriv).savedUiValid = s.savedUiValid := rfl
@[simp] theorem State.lowerPriv_savedPriv : (s.lowerPriv).savedPriv = s.savedPriv := rfl
@[simp] theorem State.lowerPriv_run : (s.lowerPriv).run = s.run := rfl
@[simp] theorem State.lowerPriv_pendingTimer : (s.lowerPriv).pendingTimer = s.pendingTimer := rfl
@[simp] theorem State.lowerPriv_pendingIo : (s.lowerPriv).pendingIo = s.pendingIo := rfl
@[simp] theorem State.lowerPriv_arrivals : (s.lowerPriv).arrivals = s.arrivals := rfl
@[simp] theorem State.lowerPriv_portInputs : (s.lowerPriv).portInputs = s.portInputs := rfl
@[simp] theorem State.lowerPriv_portTrace : (s.lowerPriv).portTrace = s.portTrace := rfl
@[simp] theorem State.lowerPriv_mem : (s.lowerPriv).mem = s.mem := rfl
@[simp] theorem State.lowerPriv_stale : (s.lowerPriv).stale = s.stale := rfl
@[simp] theorem State.lowerPriv_draws : (s.lowerPriv).draws = s.draws := rfl
@[simp] theorem State.lowerPriv_cfg : (s.lowerPriv).cfg = s.cfg := rfl

/-! ### Registers -/

/-- A register just written reads as the value written. -/
@[simp] theorem State.reg_setReg_self (n : RegNum) (v : Word) : (s.setReg n v).reg n = v := by
  simp only [State.reg, State.setReg, Vector.getElem_set_self]

/-- Every other register reads as before. -/
theorem State.reg_setReg_of_ne (n m : RegNum) (v : Word) (h : m ≠ n) : (s.setReg n v).reg m = s.reg m := by
  have h' : n.toNat ≠ m.toNat := fun e => h (BitVec.eq_of_toNat_eq e.symm)
  simp only [State.reg, State.setReg]
  rw [Vector.getElem_set_ne]
  exact h'

@[simp] theorem State.reg_setFl (f : Flags) (m : RegNum) :
    (s.setFl f).reg m = s.reg m := rfl
@[simp] theorem State.reg_setIp (v : Word) (m : RegNum) :
    (s.setIp v).reg m = s.reg m := rfl
@[simp] theorem State.reg_setSp (v : Word) (m : RegNum) :
    (s.setSp v).reg m = s.reg m := rfl
@[simp] theorem State.reg_drawn (n : Nat) (m : RegNum) :
    (s.drawn n).reg m = s.reg m := rfl
@[simp] theorem State.reg_clearUi (m : RegNum) :
    (s.clearUi).reg m = s.reg m := rfl
@[simp] theorem State.reg_enter (r : IntRecord) (m : RegNum) :
    (s.enter r).reg m = s.reg m := rfl
@[simp] theorem State.reg_leave (m : RegNum) :
    (s.leave).reg m = s.reg m := rfl
@[simp] theorem State.reg_store (pa : Nat) (v : Word) (m : RegNum) :
    (s.store pa v).reg m = s.reg m := rfl
@[simp] theorem State.reg_portWrite (p v : Word) (m : RegNum) :
    (s.portWrite p v).reg m = s.reg m := rfl
@[simp] theorem State.reg_reloadIht (m : RegNum) :
    (s.reloadIht).reg m = s.reg m := by simp only [State.reg, State.reloadIht]
@[simp] theorem State.reg_reloadPid (m : RegNum) :
    (s.reloadPid).reg m = s.reg m := rfl
@[simp] theorem State.reg_flushPt (m : RegNum) :
    (s.flushPt).reg m = s.reg m := rfl
@[simp] theorem State.reg_setIntEnable (v : Word) (m : RegNum) :
    (s.setIntEnable v).reg m = s.reg m := rfl
@[simp] theorem State.reg_lowerPriv (m : RegNum) :
    (s.lowerPriv).reg m = s.reg m := rfl

/-! ### Overwriting -/

@[simp] theorem State.setIp_setIp (v w : Word) : (s.setIp v).setIp w = s.setIp w := rfl
@[simp] theorem State.clearUi_clearUi : s.clearUi.clearUi = s.clearUi := rfl
@[simp] theorem State.drawn_zero : s.drawn 0 = s := rfl

end Sys2Proof.Machine
end

