-- ==== Sys2Proof/Laws/Ops.lean ====
section
/-! SUPPORT. For each shared operation, what it can do, said once: what a state it answers differs in, and
when it answers one. -/

namespace Sys2Proof.Machine

/-! ### Interrupts -/

/-- With interrupts enabled an internal interrupt is entered. -/
theorem raise_enabled {s : State} (r : IntRecord) (h : s.intEnable = true) : raise r s = .next (s.enter r) := by
  simp [raise, h]

/-- With interrupts disabled an internal interrupt stops the machine. -/
theorem raise_disabled {s : State} (r : IntRecord) (h : s.intEnable = false) :
    raise r s = .fault .doubleFault := by
  simp [raise, h]

/-- An internal interrupt answers the entry, and only with interrupts enabled. -/
theorem raise_next {s t : State} {r : IntRecord} (h : raise r s = .next t) :
    s.intEnable = true ∧ t = s.enter r := by
  unfold raise at h
  split at h
  · rename_i hi; cases h; exact ⟨hi, rfl⟩
  · cases h

/-- An internal interrupt is never refused, and stops the machine only with interrupts disabled. -/
theorem raise_fault {s : State} {r : IntRecord} {f : Fault} (h : raise r s = .fault f) :
    s.intEnable = false ∧ f = .doubleFault := by
  unfold raise at h
  split at h
  · cases h
  · rename_i hi; cases h; exact ⟨by simpa using hi, rfl⟩

theorem raise_ne_refused {s : State} {r : IntRecord} {q : Refusal} : raise r s ≠ .refused q := by
  unfold raise; split <;> intro h <;> cases h

/-! ### The checks before an instruction -/

theorem needsExt_present {e : Extension} {w : Word} {s : State} {body : Result} (h : s.hasExt e = true) :
    needsExt e w s body = body := by simp [needsExt, h]

theorem needsExt_absent {e : Extension} {w : Word} {s : State} {body : Result} (h : s.hasExt e = false) :
    needsExt e w s body = unsupported w s := by simp [needsExt, h]

theorem privileged_supervisor {w : Word} {s : State} {body : Result} (h : s.priv = .supervisor) :
    privileged w s body = body := by simp [privileged, h]

theorem privileged_user {w : Word} {s : State} {body : Result} (h : s.priv = .user) :
    privileged w s body = privilegeViolation w s := by simp [privileged, h]

/-- The two privilege levels. -/
theorem Priv.user_or_supervisor (p : Priv) : p = .user ∨ p = .supervisor := by cases p <;> simp

/-! ### Translation -/

/-- Finding the entry in force changes the cached table and the count of free values alone. -/
theorem State.effectivePte_frame (s : State) (p : BitVec 5) :
    { (s.effectivePte p).2 with ptCache := s.ptCache, draws := s.draws } = s := by
  simp only [State.effectivePte]
  split
  · rfl
  · split <;> rfl

/-- Translation changes the cached table and the count of free values alone. -/
theorem State.translate_frame (s : State) (va : Word) (kind : AccessKind) :
    { (s.translate va kind).2 with ptCache := s.ptCache, draws := s.draws } = s := by
  unfold State.translate
  split
  · rfl
  · split
    · rfl
    · exact s.effectivePte_frame _

/-- Unpaged, an address stands for itself. -/
theorem State.translate_unpaged (s : State) (va : Word) (kind : AccessKind) (h : s.paging = false) :
    s.translate va kind = (.ok va.toNat, s) := by simp [State.translate, h]

/-- Paged, with a specified table, translation is the check of the entry in force. -/
theorem State.translate_paged (s : State) (va : Word) (kind : AccessKind) (h : s.paging = true)
    (hk : s.ptKnown = true) :
    s.translate va kind =
      (checkPte s.priv s.cfg.memKiw (s.effectivePte (pageOf va)).1 va kind, (s.effectivePte (pageOf va)).2) := by
  simp [State.translate, h, hk]

/-- Paged, with an unspecified table, the access is refused. -/
theorem State.translate_unspecified (s : State) (va : Word) (kind : AccessKind) (h : s.paging = true)
    (hk : s.ptKnown = false) : s.translate va kind = (.refused .tableUnspecified, s) := by
  simp [State.translate, h, hk]

/-- The physical address in a frame is the frame times 2048 plus the offset in the page. -/
theorem physAddr_toNat (frame : BitVec 12) (va : Word) :
    (physAddr frame va).toNat = frame.toNat * 2048 + va.toNat % 2048 := by
  unfold physAddr
  have h : va.toNat % 2048 < 2 ^ 11 := by omega
  rw [BitVec.toNat_append, BitVec.extractLsb'_toNat, Nat.shiftRight_zero, ← Nat.shiftLeft_add_eq_or_of_lt h,
    Nat.shiftLeft_eq]

/-- A page number is the address divided by 2048. -/
theorem pageOf_toNat (va : Word) : (pageOf va).toNat = va.toNat / 2048 := by
  unfold pageOf
  rw [BitVec.extractLsb'_toNat, Nat.shiftRight_eq_div_pow]
  omega

/-- The frame number is the entry modulo 4096. -/
theorem pteFrame_toNat (e : Word) : (pteFrame e).toNat = e.toNat % 4096 := by
  unfold pteFrame
  rw [BitVec.extractLsb'_toNat, Nat.shiftRight_zero]

/-- An address that an entry translates lies in physical memory. -/
theorem checkPte_ok_lt {priv : Priv} {k e va : Word} {kind : AccessKind} {pa : Nat}
    (h : checkPte priv k e va kind = .ok pa) : pa < k.toNat * 1024 := by
  unfold checkPte at h
  split at h
  · cases h
  · split at h
    · cases h
    · split at h
      · cases h
      · injection h with h
        rw [physAddr_toNat] at h
        omega

/-- An address that translates lies in physical memory, on a machine with at least 64 kiW. -/
theorem State.translate_ok_lt {s : State} {va : Word} {kind : AccessKind} {pa : Nat}
    (hm : 64 ≤ s.cfg.memKiw.toNat) (h : (s.translate va kind).1 = .ok pa) : pa < s.cfg.memKiw.toNat * 1024 := by
  unfold State.translate at h
  split at h
  · injection h with h
    have := va.isLt
    omega
  · split at h
    · cases h
    · exact checkPte_ok_lt h

/-- A permission violation needs level 0 and paging. -/
theorem State.translate_violation {s : State} {va : Word} {kind : AccessKind}
    (h : (s.translate va kind).1 = .violation) : s.priv = .user ∧ s.paging = true := by
  unfold State.translate at h
  split at h
  · cases h
  · rename_i hp
    split at h
    · cases h
    · refine ⟨?_, by simpa using hp⟩
      simp only [checkPte] at h
      split at h
      · cases h
      · split at h
        · rename_i hv; exact hv.1
        · split at h <;> cases h

/-- A refused translation needs paging. -/
theorem State.translate_refused {s : State} {va : Word} {kind : AccessKind} {r : Refusal}
    (h : (s.translate va kind).1 = .refused r) : s.paging = true := by
  cases hp : s.paging with
  | true => rfl
  | false => rw [s.translate_unpaged va kind hp] at h; cases h

/-! ### Data access -/

section
variable {prefixed : Bool} {va : Word} {kind : AccessKind} {s : State} {body : Nat → State → Result}

/-- Where the address translates, the instruction goes on with the physical address. -/
theorem dataAccess_ok {pa : Nat} (h : (s.translate va kind).1 = .ok pa) :
    dataAccess prefixed va kind s body = body pa (s.translate va kind).2 := by
  unfold dataAccess
  split <;> rename_i e <;> simp_all

/-- A page fault enters interrupt 1. -/
theorem dataAccess_pageFault (h : (s.translate va kind).1 = .pageFault) :
    dataAccess prefixed va kind s body =
      raise ⟨idPageFault, if prefixed then s.ip - 2 else s.ip - 1, va, 0, 0⟩ (s.translate va kind).2.clearUi := by
  unfold dataAccess
  split <;> rename_i e <;> simp_all

/-- A permission violation enters interrupt 3. -/
theorem dataAccess_violation (h : (s.translate va kind).1 = .violation) :
    dataAccess prefixed va kind s body =
      raise ⟨idPermission, s.ip, va, kind.code, 0⟩ (s.translate va kind).2.clearUi := by
  unfold dataAccess
  split <;> rename_i e <;> simp_all

/-- A refused translation refuses the instruction. -/
theorem dataAccess_refused {r : Refusal} (h : (s.translate va kind).1 = .refused r) :
    dataAccess prefixed va kind s body = .refused r := by
  unfold dataAccess
  split <;> rename_i e <;> simp_all

/-- A data access answers what its body answers, or enters an interrupt with nothing done. -/
theorem dataAccess_next {t : State} (h : dataAccess prefixed va kind s body = .next t) :
    (∃ pa, (s.translate va kind).1 = .ok pa ∧ body pa (s.translate va kind).2 = .next t) ∨
      (∃ r, (s.translate va kind).2.intEnable = true ∧ t = (s.translate va kind).2.clearUi.enter r ∧
        (r.id = idPageFault ∨ r.id = idPermission)) := by
  cases hx : (s.translate va kind).1 with
  | ok pa => rw [dataAccess_ok hx] at h; exact .inl ⟨pa, rfl, h⟩
  | pageFault =>
    rw [dataAccess_pageFault hx] at h
    exact .inr ⟨_, (raise_next h).1, (raise_next h).2, .inl rfl⟩
  | violation =>
    rw [dataAccess_violation hx] at h
    exact .inr ⟨_, (raise_next h).1, (raise_next h).2, .inr rfl⟩
  | refused r => rw [dataAccess_refused hx] at h; cases h

end

/-! ### Ports -/

/-- A port read uses up one answer, or draws a free value, and is recorded. -/
theorem State.portRead_spec (s : State) (port : Word) :
    (∀ v rest, s.portInputs = v :: rest → (s.portRead port).1 = v ∧ (s.portRead port).2.portInputs = rest) ∧
      (s.portRead port).2.portTrace = s.portTrace ++ [.read port (s.portRead port).1] ∧
      { (s.portRead port).2 with
        portInputs := s.portInputs, portTrace := s.portTrace, draws := s.draws } = s := by
  unfold State.portRead
  split
  · rename_i e
    refine ⟨fun v rest h => ?_, rfl, rfl⟩
    rw [e] at h; cases h; exact ⟨rfl, rfl⟩
  · rename_i e
    refine ⟨fun v rest h => ?_, rfl, rfl⟩
    rw [e] at h; cases h

/-! ### Writing an external register -/

/-- A write to an external register changes the nine of them and the count of free values alone. -/
theorem State.writeExt_frame (s : State) (x : ExtReg) (v : Word) :
    { s.writeExt x v with
      ip := s.ip, ui := s.ui, uiValid := s.uiValid, lr := s.lr, sp := s.sp, ofs := s.ofs, fl := s.fl, f1 := s.f1,
      f2 := s.f2, draws := s.draws } = s := by
  cases x <;> rfl

/-- The defined bits of a written feature register are those of the value written. -/
theorem writeFeature_defined (m old v : Word) (n : Nat) : writeFeature m old v n &&& m = v &&& m := by
  unfold writeFeature
  split
  · rfl
  · apply BitVec.eq_of_getLsbD_eq
    intro i hi
    simp only [BitVec.getLsbD_and, BitVec.getLsbD_or, BitVec.getLsbD_not, hi]
    cases m.getLsbD i <;> simp

/-! ### A write to PX[31] -/

/-- A write to PX[31] answers its actions done, where its bits have a meaning and a table to be read lies in
frame 0. -/
theorem updateState_ok {s : State} {v : Word} (hv : v.extractLsb' 6 10 = 0)
    (hf : v.getLsbD 3 = true → s.ptAddr.toNat + 31 ≤ 0x07FF) :
    updateState v s = finish (s.updateActions v) := by
  unfold updateState
  rw [if_neg (by simp [hv]), if_neg (by rintro ⟨h1, h2⟩; have := hf h1; omega)]

/-- What a write to PX[31] answers. -/
theorem updateState_next {s t : State} {v : Word} (h : updateState v s = .next t) :
    v.extractLsb' 6 10 = 0 ∧ (v.getLsbD 3 = true → s.ptAddr.toNat + 31 ≤ 0x07FF) ∧
      t = (s.updateActions v).clearUi := by
  unfold updateState at h
  split at h
  · cases h
  · split at h
    · cases h
    · rename_i h1 h2
      refine ⟨by simpa using h1, fun hb => ?_, ?_⟩
      · by_contra hc; exact h2 ⟨hb, by omega⟩
      · cases h; rfl

/-- The actions change the tables, the PID, paging, the interrupt enable and the level alone. -/
theorem State.updateActions_frame (s : State) (v : Word) :
    { s.updateActions v with
      iht := s.iht, pid := s.pid, pidKnown := s.pidKnown, paging := s.paging, ptBase := s.ptBase,
      ptCache := s.ptCache, ptKnown := s.ptKnown, intEnable := s.intEnable, priv := s.priv } = s := by
  unfold State.updateActions State.actIf
  cases v.getLsbD 1 <;> cases v.getLsbD 0 <;> cases v.getLsbD 3 <;> cases v.getLsbD 2 <;> simp

/-- The level after the actions. -/
theorem State.updateActions_priv (s : State) (v : Word) :
    (s.updateActions v).priv = if v.getLsbD 2 = true then .user else s.priv := by
  unfold State.updateActions State.actIf
  cases v.getLsbD 1 <;> cases v.getLsbD 0 <;> cases v.getLsbD 3 <;> cases v.getLsbD 2 <;> simp

/-- The table after the actions: known after a flush, unspecified after a PID reload without one. -/
theorem State.updateActions_table (s : State) (v : Word) :
    (s.updateActions v).ptKnown = (v.getLsbD 3 || (!v.getLsbD 0 && s.ptKnown)) ∧
      (s.updateActions v).ptBase = (if v.getLsbD 3 = true then s.ptAddr else s.ptBase) ∧
      (s.updateActions v).paging = (v.getLsbD 0 || v.getLsbD 3 || s.paging) := by
  unfold State.updateActions State.actIf
  cases v.getLsbD 1 <;> cases v.getLsbD 0 <;> cases v.getLsbD 3 <;> cases v.getLsbD 2 <;> simp

end Sys2Proof.Machine
end

