-- ==== Sys2Proof/Laws/Exec.lean ====
section
/-! SUPPORT. What running an instruction can answer, said once for all instructions: every statement about
what no instruction does is a case analysis of `exec_answer`. -/

namespace Sys2Proof.Machine

/-! ### States that differ in ordinary registers alone -/

/-- `t` differs from `s` in nothing but R0..R7, the external registers, the prefix, the cached table and the
count of free values. -/
def Plain (s t : State) : Prop :=
  { t with
    regs := s.regs, ip := s.ip, lr := s.lr, sp := s.sp, ofs := s.ofs, fl := s.fl, f1 := s.f1, f2 := s.f2,
    ui := s.ui, uiValid := s.uiValid, ptCache := s.ptCache, draws := s.draws } = s

section
variable {s t u : State}

theorem Plain.eq (h : Plain s t) : { t with
    regs := s.regs, ip := s.ip, lr := s.lr, sp := s.sp, ofs := s.ofs, fl := s.fl, f1 := s.f1, f2 := s.f2,
    ui := s.ui, uiValid := s.uiValid, ptCache := s.ptCache, draws := s.draws } = s := h

theorem Plain.pid (h : Plain s t) : t.pid = s.pid := (congrArg State.pid h.eq :)
theorem Plain.pidKnown (h : Plain s t) : t.pidKnown = s.pidKnown := (congrArg State.pidKnown h.eq :)
theorem Plain.ptAddr (h : Plain s t) : t.ptAddr = s.ptAddr := (congrArg State.ptAddr h.eq :)
theorem Plain.pxId (h : Plain s t) : t.pxId = s.pxId := (congrArg State.pxId h.eq :)
theorem Plain.pxIp (h : Plain s t) : t.pxIp = s.pxIp := (congrArg State.pxIp h.eq :)
theorem Plain.pxInfo0 (h : Plain s t) : t.pxInfo0 = s.pxInfo0 := (congrArg State.pxInfo0 h.eq :)
theorem Plain.pxInfo1 (h : Plain s t) : t.pxInfo1 = s.pxInfo1 := (congrArg State.pxInfo1 h.eq :)
theorem Plain.pxInfo2 (h : Plain s t) : t.pxInfo2 = s.pxInfo2 := (congrArg State.pxInfo2 h.eq :)
theorem Plain.priv (h : Plain s t) : t.priv = s.priv := (congrArg State.priv h.eq :)
theorem Plain.intEnable (h : Plain s t) : t.intEnable = s.intEnable := (congrArg State.intEnable h.eq :)
theorem Plain.paging (h : Plain s t) : t.paging = s.paging := (congrArg State.paging h.eq :)
theorem Plain.ptBase (h : Plain s t) : t.ptBase = s.ptBase := (congrArg State.ptBase h.eq :)
theorem Plain.ptKnown (h : Plain s t) : t.ptKnown = s.ptKnown := (congrArg State.ptKnown h.eq :)
theorem Plain.iht (h : Plain s t) : t.iht = s.iht := (congrArg State.iht h.eq :)
theorem Plain.savedUi (h : Plain s t) : t.savedUi = s.savedUi := (congrArg State.savedUi h.eq :)
theorem Plain.savedUiValid (h : Plain s t) : t.savedUiValid = s.savedUiValid := (congrArg State.savedUiValid h.eq :)
theorem Plain.savedPriv (h : Plain s t) : t.savedPriv = s.savedPriv := (congrArg State.savedPriv h.eq :)
theorem Plain.run (h : Plain s t) : t.run = s.run := (congrArg State.run h.eq :)
theorem Plain.pendingTimer (h : Plain s t) : t.pendingTimer = s.pendingTimer := (congrArg State.pendingTimer h.eq :)
theorem Plain.pendingIo (h : Plain s t) : t.pendingIo = s.pendingIo := (congrArg State.pendingIo h.eq :)
theorem Plain.arrivals (h : Plain s t) : t.arrivals = s.arrivals := (congrArg State.arrivals h.eq :)
theorem Plain.portInputs (h : Plain s t) : t.portInputs = s.portInputs := (congrArg State.portInputs h.eq :)
theorem Plain.portTrace (h : Plain s t) : t.portTrace = s.portTrace := (congrArg State.portTrace h.eq :)
theorem Plain.mem (h : Plain s t) : t.mem = s.mem := (congrArg State.mem h.eq :)
theorem Plain.stale (h : Plain s t) : t.stale = s.stale := (congrArg State.stale h.eq :)
theorem Plain.cfg (h : Plain s t) : t.cfg = s.cfg := (congrArg State.cfg h.eq :)

theorem Plain.refl (s : State) : Plain s s := rfl

theorem Plain.trans (h : Plain s t) (h' : Plain t u) : Plain s u :=
  (congrArg (fun x : State => { x with
    regs := s.regs, ip := s.ip, lr := s.lr, sp := s.sp, ofs := s.ofs, fl := s.fl, f1 := s.f1, f2 := s.f2,
    ui := s.ui, uiValid := s.uiValid, ptCache := s.ptCache, draws := s.draws }) h'.eq :).trans h

/-- Translation changes ordinary state alone. -/
theorem Plain.translate (s : State) (va : Word) (kind : AccessKind) : Plain s (s.translate va kind).2 :=
  (congrArg (fun x : State => { x with
    regs := s.regs, ip := s.ip, lr := s.lr, sp := s.sp, ofs := s.ofs, fl := s.fl, f1 := s.f1, f2 := s.f2,
    ui := s.ui, uiValid := s.uiValid }) (s.translate_frame va kind) :)

/-- What a translation leaves of every register but the cached table and the count of free values. -/
theorem State.translate_regs (s : State) (va : Word) (kind : AccessKind) :
    (s.translate va kind).2.regs = s.regs ∧ (s.translate va kind).2.ip = s.ip ∧
      (s.translate va kind).2.sp = s.sp ∧ (s.translate va kind).2.f2 = s.f2 ∧
      (s.translate va kind).2.ui = s.ui ∧ (s.translate va kind).2.uiValid = s.uiValid :=
  have h := s.translate_frame va kind
  ⟨(congrArg State.regs h :), (congrArg State.ip h :), (congrArg State.sp h :), (congrArg State.f2 h :), (congrArg State.ui h :),
    (congrArg State.uiValid h :)⟩

end

/-! ### The answers -/

/-- The instructions that are privilege violations at level 0 (60_exceptions.md R332). -/
def needsSupervisor (i : Instr) : Prop := alwaysPrivileged i = true ∨ ∃ imm, i = .int imm ∧ imm.toNat < 64

/-- What running `i` in `s` can answer. -/
inductive ExecAnswer (i : Instr) (s : State) : Result → Prop where
  /-- Ordinary state changes and the prefix is cleared. -/
  | plain (t : State) : Plain s t → PrefixCleared t → ExecAnswer i s (.next t)
  /-- UI is written. -/
  | uiWritten (t : State) : Plain s t → t.uiValid = true →
      (∃ rs, i = .xwrR .cfui rs) ∨ (∃ imm, i = .xwrI .cfui imm) → ExecAnswer i s (.next t)
  /-- A word is stored. -/
  | stored (t u : State) (va v : Word) (pa : Nat) (p : Bool) : dataAccessOf s i = some (va, .write, p) →
      (s.translate va .write).1 = .ok pa → Plain s u →
      t = { u with mem := writeWord s.mem pa v, stale := noteStore s pa } → PrefixCleared t →
      ExecAnswer i s (.next t)
  /-- An interrupt is entered. -/
  | entered (u : State) (r : IntRecord) : s.intEnable = true → Plain s u → PrefixCleared u →
      (r.id = idPrivilege → s.priv = .user → needsSupervisor i) → ExecAnswer i s (.next (u.enter r))
  /-- An interrupt would be entered, with interrupts disabled. -/
  | doubleFault : s.intEnable = false → ExecAnswer i s (.fault .doubleFault)
  /-- IRT. -/
  | left (ign : BitVec 8) : i = .irt ign → s.priv = .supervisor → ExecAnswer i s (.next s.leave)
  /-- HLT. -/
  | halted (ign : BitVec 8) : i = .hlt ign → s.priv = .supervisor →
      ExecAnswer i s (.next { s with intEnable := true, run := .halted, ui := 0, uiValid := false })
  /-- HCF. -/
  | died (ign : BitVec 8) : i = .hcf ign → s.priv = .supervisor →
      ExecAnswer i s (.next { s with intEnable := false, run := .dead, ui := 0, uiValid := false })
  /-- PRD, PWR. -/
  | port (t : State) : s.priv = .supervisor →
      { t with regs := s.regs, portInputs := s.portInputs, portTrace := s.portTrace, draws := s.draws, ui := s.ui,
               uiValid := s.uiValid } = s → PrefixCleared t → ExecAnswer i s (.next t)
  /-- PXW to a register that stores. -/
  | pxWritten (t : State) : s.priv = .supervisor →
      { t with pidKnown := s.pidKnown, ptAddr := s.ptAddr, pxId := s.pxId, pxIp := s.pxIp, pxInfo0 := s.pxInfo0,
               pxInfo1 := s.pxInfo1, pxInfo2 := s.pxInfo2, ui := s.ui, uiValid := s.uiValid } = s →
      PrefixCleared t → ExecAnswer i s (.next t)
  /-- PXW to PX[31]. -/
  | updated (rs : RegNum) : i = .pxw 31 rs → s.priv = .supervisor → (s.reg rs).extractLsb' 6 10 = 0 →
      ((s.reg rs).getLsbD 3 = true → s.ptAddr.toNat + 31 ≤ 0x07FF) →
      ExecAnswer i s (.next (s.updateActions (s.reg rs)).clearUi)
  /-- A programmable instruction where CF.P = 1. -/
  | noProgram (slot : BitVec 4) (body : BitVec 8) : i = .prog slot body → s.cfg.cf.getLsbD 15 = true →
      ExecAnswer i s (.refused (.programmableUndefined slot))
  /-- A reserved PX number. -/
  | reservedPx (n : BitVec 5) : (∃ rd, i = .pxr rd n) ∨ (∃ rs, i = .pxw n rs) → s.priv = .supervisor →
      pxReg n = .reserved → ExecAnswer i s (.refused (.reservedPx n))
  /-- A meaningless bit of PX[31]. -/
  | reservedUpdate (rs : RegNum) : i = .pxw 31 rs → s.priv = .supervisor →
      (s.reg rs).extractLsb' 6 10 ≠ 0 → ExecAnswer i s (.refused (.reservedUpdateBits (s.reg rs)))
  /-- A flush of a table outside frame 0. -/
  | tableOutside (rs : RegNum) : i = .pxw 31 rs → s.priv = .supervisor →
      (s.reg rs).getLsbD 3 = true → 0x07FF < s.ptAddr.toNat + 31 →
      ExecAnswer i s (.refused (.tableOutsideFrame0 s.ptAddr))
  /-- A translation the spec gives no outcome. -/
  | untranslated (va : Word) (kind : AccessKind) (p : Bool) (r : Refusal) :
      dataAccessOf s i = some (va, kind, p) → (s.translate va kind).1 = .refused r →
      ExecAnswer i s (.refused r)

section
variable {i : Instr} {s u : State}

theorem answer_finish (h : Plain s u) : ExecAnswer i s (finish u) :=
  .plain _ (h.trans rfl) ⟨rfl, rfl⟩

theorem answer_raise {r : IntRecord} (h : Plain s u) (hc : PrefixCleared u)
    (hr : r.id = idPrivilege → s.priv = .user → needsSupervisor i) : ExecAnswer i s (raise r u) := by
  cases hi : s.intEnable with
  | true => rw [raise_enabled r (h.intEnable.trans hi)]; exact .entered u r hi h hc hr
  | false => rw [raise_disabled r (h.intEnable.trans hi)]; exact .doubleFault hi

theorem answer_unsupported (w : Word) : ExecAnswer i s (unsupported w s) :=
  answer_raise (Plain.refl s |>.trans rfl) ⟨rfl, rfl⟩
    (fun h => absurd (show idUnsupported = idPrivilege from h) (by decide))

theorem answer_needsExt {e : Extension} {w : Word} {body : Result}
    (h : s.hasExt e = true → ExecAnswer i s body) : ExecAnswer i s (needsExt e w s body) := by
  cases he : s.hasExt e with
  | true => rw [needsExt_present he]; exact h he
  | false => rw [needsExt_absent he]; exact answer_unsupported w

theorem answer_privileged {w : Word} {body : Result} (hi : needsSupervisor i)
    (h : s.priv = .supervisor → ExecAnswer i s body) : ExecAnswer i s (privileged w s body) := by
  rcases s.priv.user_or_supervisor with hp | hp
  · rw [privileged_user hp]; exact answer_raise (Plain.refl s |>.trans rfl) ⟨rfl, rfl⟩ (fun _ _ => hi)
  · rw [privileged_supervisor hp]; exact h hp

theorem answer_dataAccess {va : Word} {kind : AccessKind} {p : Bool} {body : Nat → State → Result}
    (hd : dataAccessOf s i = some (va, kind, p))
    (h : ∀ pa, (s.translate va kind).1 = .ok pa → ExecAnswer i s (body pa (s.translate va kind).2)) :
    ExecAnswer i s (dataAccess p va kind s body) := by
  have hp : Plain s (s.translate va kind).2.clearUi := (Plain.translate s va kind).trans rfl
  cases hx : (s.translate va kind).1 with
  | ok pa => rw [dataAccess_ok hx]; exact h pa hx
  | pageFault =>
    rw [dataAccess_pageFault hx]
    exact answer_raise hp ⟨rfl, rfl⟩ (fun h => absurd (show idPageFault = idPrivilege from h) (by decide))
  | violation =>
    rw [dataAccess_violation hx]
    exact answer_raise hp ⟨rfl, rfl⟩ (fun h => absurd (show idPermission = idPrivilege from h) (by decide))
  | refused r => rw [dataAccess_refused hx]; exact .untranslated va kind p r hd hx

/-- Storing after a translation stores in the memory that was there before it. -/
theorem State.store_translate (s : State) (va : Word) (kind : AccessKind) (pa : Nat) (v : Word) :
    (s.translate va kind).2.store pa v =
      { (s.translate va kind).2 with mem := writeWord s.mem pa v, stale := noteStore s pa } := by
  have h := Plain.translate s va kind
  have hf := (s.translate_regs va kind).2.2.2.1
  have hn : noteStore (s.translate va kind).2 pa = noteStore s pa := by
    simp only [noteStore, State.olderWords, State.codeProtected, h.mem, h.stale, hf]
    rfl
  unfold State.store
  rw [h.mem, hn]

theorem answer_load {rd : RegNum} {va : Word} {p : Bool} (hd : dataAccessOf s i = some (va, .read, p)) :
    ExecAnswer i s (memLoad rd p va s) :=
  answer_dataAccess hd fun _ _ => answer_finish ((Plain.translate s va .read).trans rfl)

theorem answer_store {va v : Word} {p : Bool} (hd : dataAccessOf s i = some (va, .write, p)) :
    ExecAnswer i s (memStore p va v s) :=
  answer_dataAccess hd fun pa hx => by
    rw [s.store_translate]
    exact .stored _ (s.translate va .write).2.clearUi va v pa p hd hx ((Plain.translate s va .write).trans rfl)
      rfl ⟨rfl, rfl⟩

theorem answer_condJump (cond : Bool) (off : Word) : ExecAnswer i s (condJump cond off s) := by
  unfold condJump
  split
  · exact answer_finish rfl
  · exact answer_finish rfl

theorem answer_condMove (cond : Bool) (rd : RegNum) (b : Word) : ExecAnswer i s (condMove cond rd b s) := by
  unfold condMove
  split
  · exact answer_finish rfl
  · exact answer_finish rfl

theorem answer_divide (rd : RegNum) (b : Word) : ExecAnswer i s (divide rd b s) := by
  unfold divide
  split
  · exact answer_raise rfl ⟨rfl, rfl⟩ (fun h => absurd (show idDivZero = idPrivilege from h) (by decide))
  · split
    · exact answer_finish rfl
    · exact answer_finish rfl

theorem answer_portLoad (rd : RegNum) (port : Word) (hp : s.priv = .supervisor) :
    ExecAnswer i s (portLoad rd port s) :=
  .port _ hp (congrArg (fun x : State => { x with regs := s.regs, ui := s.ui, uiValid := s.uiValid })
    (s.portRead_spec port).2.2 :) ⟨rfl, rfl⟩

theorem answer_pxRead {rd : RegNum} {n : BitVec 5} (hp : s.priv = .supervisor) (hi : i = .pxr rd n) :
    ExecAnswer i s (pxRead rd n s) := by
  unfold pxRead
  split <;> try exact answer_finish rfl
  · split <;> exact answer_finish rfl
  · rename_i h; exact .reservedPx n (.inl ⟨rd, hi⟩) hp h

/-- The number 31 alone names the state-update register. -/
theorem pxReg_update {n : BitVec 5} (h : pxReg n = .update) : n = 31 := by
  revert h; revert n; decide

/-- The reserved numbers are 4 to 9 and 15 to 30. -/
theorem pxReg_reserved (n : BitVec 5) :
    pxReg n = .reserved ↔ (4 ≤ n.toNat ∧ n.toNat ≤ 9) ∨ (15 ≤ n.toNat ∧ n.toNat ≤ 30) := by
  revert n; decide

theorem answer_pxWrite {n : BitVec 5} {rs : RegNum} (hp : s.priv = .supervisor) (hi : i = .pxw n rs) :
    ExecAnswer i s (pxWrite n (s.reg rs) s) := by
  unfold pxWrite
  split <;> try exact .pxWritten _ hp rfl ⟨rfl, rfl⟩
  · rename_i h
    obtain rfl := pxReg_update h
    unfold updateState
    split
    · rename_i h1; exact .reservedUpdate rs hi hp h1
    · split
      · rename_i h2; exact .tableOutside rs hi hp h2.1 h2.2
      · rename_i h1 h2
        exact .updated rs hi hp (by simpa using h1) (fun hb => by by_contra hc; exact h2 ⟨hb, by omega⟩)
  · rename_i h; exact .reservedPx n (.inr ⟨rs, hi⟩) hp h

theorem answer_extWrite (x : ExtReg) (v : Word)
    (hi : x = .cfui → (∃ rs, i = .xwrR .cfui rs) ∨ (∃ imm, i = .xwrI .cfui imm)) :
    ExecAnswer i s (extWrite x v s) := by
  cases x <;> first
    | exact answer_finish rfl
    | exact .uiWritten _ rfl rfl (hi rfl)

/-- What running an instruction can answer. -/
theorem exec_answer (i : Instr) (s : State) : ExecAnswer i s (exec i s) := by
  cases i with
  | invRR00 => exact answer_unsupported _
  | invRR01 => exact answer_unsupported _
  | invRR02 => exact answer_unsupported _
  | invRR03 => exact answer_unsupported _
  | invRR04 => exact answer_unsupported _
  | invRR05 => exact answer_unsupported _
  | invRR06 => exact answer_unsupported _
  | invRR07 => exact answer_unsupported _
  | prdR => exact answer_privileged (.inl rfl) (answer_portLoad _ _)
  | pwrR => exact answer_privileged (.inl rfl) fun hp => .port _ hp rfl ⟨rfl, rfl⟩
  | xrd => exact answer_finish rfl
  | xwrR => exact answer_extWrite _ _ fun h => .inl ⟨_, by rw [h]⟩
  | mrdR => exact answer_load rfl
  | mwrR => exact answer_store rfl
  | mroR => exact answer_load rfl
  | mwoR => exact answer_store rfl
  | mulR => exact answer_needsExt fun _ => answer_finish rfl
  | cmpR => exact answer_finish rfl
  | divR => exact answer_needsExt fun _ => answer_divide _ _
  | tstR => exact answer_finish rfl
  | movR => exact answer_finish rfl
  | invRR15 => exact answer_unsupported _
  | invRR16 => exact answer_unsupported _
  | invRR17 => exact answer_unsupported _
  | addR => exact answer_finish rfl
  | subR => exact answer_finish rfl
  | notR => exact answer_finish rfl
  | andR => exact answer_finish rfl
  | orrR => exact answer_finish rfl
  | xorR => exact answer_finish rfl
  | shlR => exact answer_finish rfl
  | shrR => exact answer_finish rfl
  | int imm =>
    change ExecAnswer _ s (execInt imm s)
    unfold execInt
    split
    · rename_i h
      exact answer_privileged (.inr ⟨imm, rfl, h⟩) fun hp => answer_raise rfl ⟨rfl, rfl⟩
        (fun _ hu => absurd (hp.symm.trans hu) (by decide))
    · rename_i h
      refine answer_raise rfl ⟨rfl, rfl⟩ (fun hr _ => absurd ?_ h)
      have hr' : imm = idPrivilege := hr
      subst hr'; decide
  | irt => exact answer_privileged (.inl rfl) (.left _ rfl)
  | hlt => exact answer_privileged (.inl rfl) (.halted _ rfl)
  | hcf => exact answer_privileged (.inl rfl) (.died _ rfl)
  | invL0C => exact answer_unsupported _
  | invL0D => exact answer_unsupported _
  | pxr => exact answer_privileged (.inl rfl) fun hp => answer_pxRead hp rfl
  | pxw => exact answer_privileged (.inl rfl) fun hp => answer_pxWrite hp rfl
  | calI => exact answer_finish rfl
  | jmpI => exact answer_finish rfl
  | jcu => exact answer_condJump _ _
  | jcs => exact answer_condJump _ _
  | prog => exact answer_needsExt fun h => .noProgram _ _ rfl h
  | prdI => exact answer_privileged (.inl rfl) (answer_portLoad _ _)
  | pwrI => exact answer_privileged (.inl rfl) fun hp => .port _ hp rfl ⟨rfl, rfl⟩
  | invS0A => exact answer_unsupported _
  | xwrI => exact answer_extWrite _ _ fun h => .inr ⟨_, by rw [h]⟩
  | mrdI => exact answer_load rfl
  | mwrI => exact answer_store rfl
  | mroI => exact answer_load rfl
  | mwoI => exact answer_store rfl
  | mulI => exact answer_needsExt fun _ => answer_finish rfl
  | cmpI => exact answer_finish rfl
  | divI => exact answer_needsExt fun _ => answer_divide _ _
  | tstI => exact answer_finish rfl
  | movI => exact answer_finish rfl
  | pop rd ign =>
    exact answer_dataAccess rfl fun _ _ => answer_finish ((Plain.translate s s.sp .read).trans rfl)
  | psh rs ign =>
    refine answer_dataAccess (va := s.sp - 1) rfl fun pa hx => ?_
    rw [s.store_translate]
    exact .stored _ ((s.translate (s.sp - 1) .write).2.setSp (s.sp - 1)).clearUi (s.sp - 1) (s.reg rs) pa false rfl
      hx ((Plain.translate s (s.sp - 1) .write).trans rfl) rfl ⟨rfl, rfl⟩
  | calR => exact answer_finish rfl
  | jmpR => exact answer_finish rfl
  | ret => exact answer_finish rfl
  | invLAD => exact answer_unsupported _
  | invLAE => exact answer_unsupported _
  | nop => exact answer_finish rfl
  | mcu => exact answer_needsExt fun _ => answer_condMove _ _ _
  | mcs => exact answer_needsExt fun _ => answer_condMove _ _ _
  | addI => exact answer_finish rfl
  | subI => exact answer_finish rfl
  | notI => exact answer_finish rfl
  | andI => exact answer_finish rfl
  | orrI => exact answer_finish rfl
  | xorI => exact answer_finish rfl
  | shlI => exact answer_finish rfl
  | shrI => exact answer_finish rfl

end

end Sys2Proof.Machine
end

