-- ==== Sys2Proof/WellFormed.lean ====
section
/-! DEFINITION. What the spec asks of a program's instructions beyond their encoding. Field widths are
carried by the types of Instr; the must-be-zero bits of 30_encoding.md R166 by its constructors. -/

namespace Sys2Proof

/-- The PX numbers a program may name: all but 4 to 9 and 15 to 30, which "MUST NOT be used"
(10_state.md R50, R57). -/
def pxUsable (n : BitVec 5) : Bool :=
  decide (n.toNat < 4) || (decide (10 ≤ n.toNat) && decide (n.toNat < 15)) || n.toNat == 31

/-- A well-formed instruction: PXR and PXW name no reserved register (10_state.md R57). -/
def Instr.wellFormed : Instr → Bool
  | .invRR00 .. => true
  | .invRR01 .. => true
  | .invRR02 .. => true
  | .invRR03 .. => true
  | .invRR04 .. => true
  | .invRR05 .. => true
  | .invRR06 .. => true
  | .invRR07 .. => true
  | .prdR .. => true
  | .pwrR .. => true
  | .xrd .. => true
  | .xwrR .. => true
  | .mrdR .. => true
  | .mwrR .. => true
  | .mroR .. => true
  | .mwoR .. => true
  | .mulR .. => true
  | .cmpR .. => true
  | .divR .. => true
  | .tstR .. => true
  | .movR .. => true
  | .invRR15 .. => true
  | .invRR16 .. => true
  | .invRR17 .. => true
  | .addR .. => true
  | .subR .. => true
  | .notR .. => true
  | .andR .. => true
  | .orrR .. => true
  | .xorR .. => true
  | .shlR .. => true
  | .shrR .. => true
  | .int .. => true
  | .irt .. => true
  | .hlt .. => true
  | .hcf .. => true
  | .invL0C .. => true
  | .invL0D .. => true
  | .pxr _ n => pxUsable n
  | .pxw n _ => pxUsable n
  | .calI .. => true
  | .jmpI .. => true
  | .jcu .. => true
  | .jcs .. => true
  | .prog .. => true
  | .prdI .. => true
  | .pwrI .. => true
  | .invS0A .. => true
  | .xwrI .. => true
  | .mrdI .. => true
  | .mwrI .. => true
  | .mroI .. => true
  | .mwoI .. => true
  | .mulI .. => true
  | .cmpI .. => true
  | .divI .. => true
  | .tstI .. => true
  | .movI .. => true
  | .pop .. => true
  | .psh .. => true
  | .calR .. => true
  | .jmpR .. => true
  | .ret .. => true
  | .invLAD .. => true
  | .invLAE .. => true
  | .nop .. => true
  | .mcu .. => true
  | .mcs .. => true
  | .addI .. => true
  | .subI .. => true
  | .notI .. => true
  | .andI .. => true
  | .orrI .. => true
  | .xorI .. => true
  | .shlI .. => true
  | .shrI .. => true

/-- The ignored field of an instruction, which "should be set to 0" and which any value may fill
(30_encoding.md R167): `none` where the row has no such field. -/
def Instr.ignored : Instr → Option Nat
  | .invRR00 .. => none
  | .invRR01 .. => none
  | .invRR02 .. => none
  | .invRR03 .. => none
  | .invRR04 .. => none
  | .invRR05 .. => none
  | .invRR06 .. => none
  | .invRR07 .. => none
  | .prdR .. => none
  | .pwrR .. => none
  | .xrd .. => none
  | .xwrR .. => none
  | .mrdR .. => none
  | .mwrR .. => none
  | .mroR .. => none
  | .mwoR .. => none
  | .mulR .. => none
  | .cmpR .. => none
  | .divR .. => none
  | .tstR .. => none
  | .movR .. => none
  | .invRR15 .. => none
  | .invRR16 .. => none
  | .invRR17 .. => none
  | .addR .. => none
  | .subR .. => none
  | .notR .. => none
  | .andR .. => none
  | .orrR .. => none
  | .xorR .. => none
  | .shlR .. => none
  | .shrR .. => none
  | .int .. => none
  | .irt ign => some ign.toNat
  | .hlt ign => some ign.toNat
  | .hcf ign => some ign.toNat
  | .invL0C .. => none
  | .invL0D .. => none
  | .pxr .. => none
  | .pxw .. => none
  | .calI .. => none
  | .jmpI .. => none
  | .jcu .. => none
  | .jcs .. => none
  | .prog .. => none
  | .prdI .. => none
  | .pwrI .. => none
  | .invS0A .. => none
  | .xwrI .. => none
  | .mrdI .. => none
  | .mwrI .. => none
  | .mroI .. => none
  | .mwoI .. => none
  | .mulI .. => none
  | .cmpI .. => none
  | .divI .. => none
  | .tstI .. => none
  | .movI .. => none
  | .pop _ ign => some ign.toNat
  | .psh _ ign => some ign.toNat
  | .calR _ ign => some ign.toNat
  | .jmpR _ ign => some ign.toNat
  | .ret .. => none
  | .invLAD .. => none
  | .invLAE .. => none
  | .nop ign => some ign.toNat
  | .mcu .. => none
  | .mcs .. => none
  | .addI .. => none
  | .subI .. => none
  | .notI .. => none
  | .andI .. => none
  | .orrI .. => none
  | .xorI .. => none
  | .shlI .. => none
  | .shrI .. => none

/-- The form an assembler emits: well formed, and the ignored field 0 (30_encoding.md R167). -/
def Instr.assembled (i : Instr) : Bool :=
  i.wellFormed && (i.ignored == none || i.ignored == some 0)

end Sys2Proof
end

