-- ==== Sys2Proof/Laws/PerInstr.lean ====
section
/-! SUPPORT. Statements about each instruction as syntax, one lemma a constructor. -/

namespace Sys2Proof.Laws

open Sys2Proof

/-- The word of an instruction matches its row of spec/opcode_table.json: the bits under the row's mask are the
row's match. -/
def MatchesRow.Statement (i : Instr) : Prop := encode i &&& i.rowMask = i.rowMatch

theorem MatchesRow.invRR00 (rd : RegNum) (rs : RegNum) : MatchesRow.Statement (.invRR00 rd rs) :=
  (encRegReg_fixed _ _ _).trans rfl

theorem MatchesRow.invRR01 (rd : RegNum) (rs : RegNum) : MatchesRow.Statement (.invRR01 rd rs) :=
  (encRegReg_fixed _ _ _).trans rfl

theorem MatchesRow.invRR02 (rd : RegNum) (rs : RegNum) : MatchesRow.Statement (.invRR02 rd rs) :=
  (encRegReg_fixed _ _ _).trans rfl

theorem MatchesRow.invRR03 (rd : RegNum) (rs : RegNum) : MatchesRow.Statement (.invRR03 rd rs) :=
  (encRegReg_fixed _ _ _).trans rfl

theorem MatchesRow.invRR04 (rd : RegNum) (rs : RegNum) : MatchesRow.Statement (.invRR04 rd rs) :=
  (encRegReg_fixed _ _ _).trans rfl

theorem MatchesRow.invRR05 (rd : RegNum) (rs : RegNum) : MatchesRow.Statement (.invRR05 rd rs) :=
  (encRegReg_fixed _ _ _).trans rfl

theorem MatchesRow.invRR06 (rd : RegNum) (rs : RegNum) : MatchesRow.Statement (.invRR06 rd rs) :=
  (encRegReg_fixed _ _ _).trans rfl

theorem MatchesRow.invRR07 (rd : RegNum) (rs : RegNum) : MatchesRow.Statement (.invRR07 rd rs) :=
  (encRegReg_fixed _ _ _).trans rfl

theorem MatchesRow.prdR (rd : RegNum) (rs : RegNum) : MatchesRow.Statement (.prdR rd rs) :=
  (encRegReg_fixed _ _ _).trans rfl

theorem MatchesRow.pwrR (rd : RegNum) (rs : RegNum) : MatchesRow.Statement (.pwrR rd rs) :=
  (encRegReg_fixed _ _ _).trans rfl

theorem MatchesRow.xrd (rd : RegNum) (x : ExtReg) : MatchesRow.Statement (.xrd rd x) :=
  (encRegReg_fixed _ _ _).trans rfl

theorem MatchesRow.xwrR (x : ExtReg) (rs : RegNum) : MatchesRow.Statement (.xwrR x rs) :=
  (encRegReg_fixed _ _ _).trans rfl

theorem MatchesRow.mrdR (rd : RegNum) (rs : RegNum) : MatchesRow.Statement (.mrdR rd rs) :=
  (encRegReg_fixed _ _ _).trans rfl

theorem MatchesRow.mwrR (rd : RegNum) (rs : RegNum) : MatchesRow.Statement (.mwrR rd rs) :=
  (encRegReg_fixed _ _ _).trans rfl

theorem MatchesRow.mroR (rd : RegNum) (rs : RegNum) : MatchesRow.Statement (.mroR rd rs) :=
  (encRegReg_fixed _ _ _).trans rfl

theorem MatchesRow.mwoR (rd : RegNum) (rs : RegNum) : MatchesRow.Statement (.mwoR rd rs) :=
  (encRegReg_fixed _ _ _).trans rfl

theorem MatchesRow.mulR (rd : RegNum) (rs : RegNum) : MatchesRow.Statement (.mulR rd rs) :=
  (encRegReg_fixed _ _ _).trans rfl

theorem MatchesRow.cmpR (rd : RegNum) (rs : RegNum) : MatchesRow.Statement (.cmpR rd rs) :=
  (encRegReg_fixed _ _ _).trans rfl

theorem MatchesRow.divR (rd : RegNum) (rs : RegNum) : MatchesRow.Statement (.divR rd rs) :=
  (encRegReg_fixed _ _ _).trans rfl

theorem MatchesRow.tstR (rd : RegNum) (rs : RegNum) : MatchesRow.Statement (.tstR rd rs) :=
  (encRegReg_fixed _ _ _).trans rfl

theorem MatchesRow.movR (rd : RegNum) (rs : RegNum) : MatchesRow.Statement (.movR rd rs) :=
  (encRegReg_fixed _ _ _).trans rfl

theorem MatchesRow.invRR15 (rd : RegNum) (rs : RegNum) : MatchesRow.Statement (.invRR15 rd rs) :=
  (encRegReg_fixed _ _ _).trans rfl

theorem MatchesRow.invRR16 (rd : RegNum) (rs : RegNum) : MatchesRow.Statement (.invRR16 rd rs) :=
  (encRegReg_fixed _ _ _).trans rfl

theorem MatchesRow.invRR17 (rd : RegNum) (rs : RegNum) : MatchesRow.Statement (.invRR17 rd rs) :=
  (encRegReg_fixed _ _ _).trans rfl

theorem MatchesRow.addR (rd : RegNum) (rs : RegNum) : MatchesRow.Statement (.addR rd rs) :=
  (encRegReg_fixed _ _ _).trans rfl

theorem MatchesRow.subR (rd : RegNum) (rs : RegNum) : MatchesRow.Statement (.subR rd rs) :=
  (encRegReg_fixed _ _ _).trans rfl

theorem MatchesRow.notR (rd : RegNum) (rs : RegNum) : MatchesRow.Statement (.notR rd rs) :=
  (encRegReg_fixed _ _ _).trans rfl

theorem MatchesRow.andR (rd : RegNum) (rs : RegNum) : MatchesRow.Statement (.andR rd rs) :=
  (encRegReg_fixed _ _ _).trans rfl

theorem MatchesRow.orrR (rd : RegNum) (rs : RegNum) : MatchesRow.Statement (.orrR rd rs) :=
  (encRegReg_fixed _ _ _).trans rfl

theorem MatchesRow.xorR (rd : RegNum) (rs : RegNum) : MatchesRow.Statement (.xorR rd rs) :=
  (encRegReg_fixed _ _ _).trans rfl

theorem MatchesRow.shlR (rd : RegNum) (rs : RegNum) : MatchesRow.Statement (.shlR rd rs) :=
  (encRegReg_fixed _ _ _).trans rfl

theorem MatchesRow.shrR (rd : RegNum) (rs : RegNum) : MatchesRow.Statement (.shrR rd rs) :=
  (encRegReg_fixed _ _ _).trans rfl

theorem MatchesRow.int (imm : BitVec 8) : MatchesRow.Statement (.int imm) :=
  (encLongImm_fixed _ _).trans rfl

theorem MatchesRow.irt (ign : BitVec 8) : MatchesRow.Statement (.irt ign) :=
  (encLongImm_fixed _ _).trans rfl

theorem MatchesRow.hlt (ign : BitVec 8) : MatchesRow.Statement (.hlt ign) :=
  (encLongImm_fixed _ _).trans rfl

theorem MatchesRow.hcf (ign : BitVec 8) : MatchesRow.Statement (.hcf ign) :=
  (encLongImm_fixed _ _).trans rfl

theorem MatchesRow.invL0C (ign : BitVec 8) : MatchesRow.Statement (.invL0C ign) :=
  (encLongImm_fixed _ _).trans rfl

theorem MatchesRow.invL0D (ign : BitVec 8) : MatchesRow.Statement (.invL0D ign) :=
  (encLongImm_fixed _ _).trans rfl

theorem MatchesRow.pxr (rd : RegNum) (n : BitVec 5) : MatchesRow.Statement (.pxr rd n) :=
  (encLongRegImm_fixed _ _ _).trans rfl

theorem MatchesRow.pxw (n : BitVec 5) (rs : RegNum) : MatchesRow.Statement (.pxw n rs) :=
  (encLongRegImm_fixed _ _ _).trans rfl

theorem MatchesRow.calI (imm : BitVec 11) : MatchesRow.Statement (.calI imm) :=
  (encLong11_fixed _ _).trans rfl

theorem MatchesRow.jmpI (imm : BitVec 11) : MatchesRow.Statement (.jmpI imm) :=
  (encLong11_fixed _ _).trans rfl

theorem MatchesRow.jcu (leg : Leg) (imm : BitVec 8) : MatchesRow.Statement (.jcu leg imm) :=
  (encJmpCcc_fixed _ _ _).trans rfl

theorem MatchesRow.jcs (leg : Leg) (imm : BitVec 8) : MatchesRow.Statement (.jcs leg imm) :=
  (encJmpCcc_fixed _ _ _).trans rfl

theorem MatchesRow.prog (slot : BitVec 4) (body : BitVec 8) : MatchesRow.Statement (.prog slot body) := by
  apply BitVec.eq_of_getLsbD_eq
  intro i hi
  simp only [encode, Instr.rowMask, Instr.rowMatch, BitVec.getLsbD_and, BitVec.getLsbD_append]
  interval_cases i <;> simp

theorem MatchesRow.prdI (rd : RegNum) (imm : BitVec 8) : MatchesRow.Statement (.prdI rd imm) :=
  (encRegImm_fixed _ _ _).trans rfl

theorem MatchesRow.pwrI (imm : BitVec 8) (rs : RegNum) : MatchesRow.Statement (.pwrI imm rs) :=
  (encRegImm_fixed _ _ _).trans rfl

theorem MatchesRow.invS0A (ign : BitVec 11) : MatchesRow.Statement (.invS0A ign) :=
  (encLong11_fixed _ _).trans rfl

theorem MatchesRow.xwrI (x : ExtReg) (imm : BitVec 8) : MatchesRow.Statement (.xwrI x imm) :=
  (encRegImm_fixed _ _ _).trans rfl

theorem MatchesRow.mrdI (rd : RegNum) (imm : BitVec 8) : MatchesRow.Statement (.mrdI rd imm) :=
  (encRegImm_fixed _ _ _).trans rfl

theorem MatchesRow.mwrI (imm : BitVec 8) (rs : RegNum) : MatchesRow.Statement (.mwrI imm rs) :=
  (encRegImm_fixed _ _ _).trans rfl

theorem MatchesRow.mroI (rd : RegNum) (imm : BitVec 8) : MatchesRow.Statement (.mroI rd imm) :=
  (encRegImm_fixed _ _ _).trans rfl

theorem MatchesRow.mwoI (imm : BitVec 8) (rs : RegNum) : MatchesRow.Statement (.mwoI imm rs) :=
  (encRegImm_fixed _ _ _).trans rfl

theorem MatchesRow.mulI (rd : RegNum) (imm : BitVec 8) : MatchesRow.Statement (.mulI rd imm) :=
  (encRegImm_fixed _ _ _).trans rfl

theorem MatchesRow.cmpI (rd : RegNum) (imm : BitVec 8) : MatchesRow.Statement (.cmpI rd imm) :=
  (encRegImm_fixed _ _ _).trans rfl

theorem MatchesRow.divI (rd : RegNum) (imm : BitVec 8) : MatchesRow.Statement (.divI rd imm) :=
  (encRegImm_fixed _ _ _).trans rfl

theorem MatchesRow.tstI (rd : RegNum) (imm : BitVec 8) : MatchesRow.Statement (.tstI rd imm) :=
  (encRegImm_fixed _ _ _).trans rfl

theorem MatchesRow.movI (rd : RegNum) (imm : BitVec 8) : MatchesRow.Statement (.movI rd imm) :=
  (encRegImm_fixed _ _ _).trans rfl

theorem MatchesRow.pop (rd : RegNum) (ign : BitVec 5) : MatchesRow.Statement (.pop rd ign) :=
  (encLongRegImm_fixed _ _ _).trans rfl

theorem MatchesRow.psh (rs : RegNum) (ign : BitVec 5) : MatchesRow.Statement (.psh rs ign) :=
  (encLongRegImm_fixed _ _ _).trans rfl

theorem MatchesRow.calR (rs : RegNum) (ign : BitVec 5) : MatchesRow.Statement (.calR rs ign) :=
  (encLongRegImm_fixed _ _ _).trans rfl

theorem MatchesRow.jmpR (rs : RegNum) (ign : BitVec 5) : MatchesRow.Statement (.jmpR rs ign) :=
  (encLongRegImm_fixed _ _ _).trans rfl

theorem MatchesRow.ret (socz : BitVec 4) : MatchesRow.Statement (.ret socz) := by
  apply BitVec.eq_of_getLsbD_eq
  intro i hi
  simp only [encode, Instr.rowMask, Instr.rowMatch, BitVec.getLsbD_and, BitVec.getLsbD_append]
  interval_cases i <;> simp

theorem MatchesRow.invLAD (ign : BitVec 8) : MatchesRow.Statement (.invLAD ign) :=
  (encLongImm_fixed _ _).trans rfl

theorem MatchesRow.invLAE (ign : BitVec 8) : MatchesRow.Statement (.invLAE ign) :=
  (encLongImm_fixed _ _).trans rfl

theorem MatchesRow.nop (ign : BitVec 8) : MatchesRow.Statement (.nop ign) :=
  (encLongImm_fixed _ _).trans rfl

theorem MatchesRow.mcu (leg : Leg) (rd : RegNum) (rs : RegNum) : MatchesRow.Statement (.mcu leg rd rs) :=
  (encMovCcc_fixed _ _ _ _).trans rfl

theorem MatchesRow.mcs (leg : Leg) (rd : RegNum) (rs : RegNum) : MatchesRow.Statement (.mcs leg rd rs) :=
  (encMovCcc_fixed _ _ _ _).trans rfl

theorem MatchesRow.addI (rd : RegNum) (imm : BitVec 8) : MatchesRow.Statement (.addI rd imm) :=
  (encRegImm_fixed _ _ _).trans rfl

theorem MatchesRow.subI (rd : RegNum) (imm : BitVec 8) : MatchesRow.Statement (.subI rd imm) :=
  (encRegImm_fixed _ _ _).trans rfl

theorem MatchesRow.notI (rd : RegNum) (imm : BitVec 8) : MatchesRow.Statement (.notI rd imm) :=
  (encRegImm_fixed _ _ _).trans rfl

theorem MatchesRow.andI (rd : RegNum) (imm : BitVec 8) : MatchesRow.Statement (.andI rd imm) :=
  (encRegImm_fixed _ _ _).trans rfl

theorem MatchesRow.orrI (rd : RegNum) (imm : BitVec 8) : MatchesRow.Statement (.orrI rd imm) :=
  (encRegImm_fixed _ _ _).trans rfl

theorem MatchesRow.xorI (rd : RegNum) (imm : BitVec 8) : MatchesRow.Statement (.xorI rd imm) :=
  (encRegImm_fixed _ _ _).trans rfl

theorem MatchesRow.shlI (rd : RegNum) (imm : BitVec 8) : MatchesRow.Statement (.shlI rd imm) :=
  (encRegImm_fixed _ _ _).trans rfl

theorem MatchesRow.shrI (rd : RegNum) (imm : BitVec 8) : MatchesRow.Statement (.shrI rd imm) :=
  (encRegImm_fixed _ _ _).trans rfl

end Sys2Proof.Laws
end

