-- ==== Sys2Proof/Laws/Step.lean ====
section
/-! SUPPORT. What a step can do, said once: `step_answer`. Every statement about all steps is a case analysis
of it, and of `exec_answer` where an instruction ran. -/

namespace Sys2Proof.Machine

/-! ### Requests from outside -/

/-- A request arriving changes the pending requests alone. -/
theorem State.arrive_frame (s : State) (e : ExtEvent) :
    { s.arrive e with pendingTimer := s.pendingTimer, pendingIo := s.pendingIo } = s := by
  cases e <;> rfl

/-- Several requests arriving change the pending requests alone. -/
theorem foldl_arrive_frame (es : List ExtEvent) (s : State) :
    { es.foldl State.arrive s with pendingTimer := s.pendingTimer, pendingIo := s.pendingIo } = s := by
  induction es generalizing s with
  | nil => rfl
  | cons e es ih =>
    exact (congrArg (fun x : State => { x with pendingTimer := s.pendingTimer, pendingIo := s.pendingIo })
      (ih (s.arrive e)) :).trans (s.arrive_frame e)

/-- Polling changes the pending requests and the schedule alone. -/
theorem State.poll_frame (s : State) :
    { s.poll with pendingTimer := s.pendingTimer, pendingIo := s.pendingIo, arrivals := s.arrivals } = s := by
  unfold State.poll
  split
  · rfl
  · exact (congrArg (fun x : State => { x with arrivals := s.arrivals }) (foldl_arrive_frame _ _) :)

/-- With nothing to arrive, polling changes nothing. -/
theorem State.poll_of_nil {s : State} (h : s.arrivals = []) : s.poll = s := by
  unfold State.poll
  rw [h]

/-- With interrupts disabled no external interrupt is taken. -/
theorem State.takeExternal_disabled {s : State} (h : s.intEnable = false) : s.takeExternal = none := by
  unfold State.takeExternal
  rw [if_pos h]

/-- With nothing pending no external interrupt is taken. -/
theorem State.takeExternal_idle {s : State} (ht : s.pendingTimer = false) (hq : s.pendingIo = []) :
    s.takeExternal = none := by
  simp [State.takeExternal, ht, hq]

/-- An external interrupt is the timer's or a device's, uses up its request, and needs interrupts enabled. -/
theorem State.takeExternal_some {s t : State} (h : s.takeExternal = some t) :
    s.intEnable = true ∧ ∃ (u : State) (r : IntRecord), t = u.enter r ∧ (r.id = idTimer ∨ r.id = idIo) ∧
      { u with pendingTimer := s.pendingTimer, pendingIo := s.pendingIo } = s := by
  unfold State.takeExternal at h
  split at h
  · cases h
  · rename_i hi
    refine ⟨by simpa using hi, ?_⟩
    split at h
    · cases h; exact ⟨_, _, rfl, .inl rfl, rfl⟩
    · split at h
      · cases h
      · cases h; exact ⟨_, _, rfl, .inr rfl, rfl⟩

/-! ### An image in memory -/

/-- Putting an image into memory changes memory alone. -/
theorem State.withImage_frame (s : State) (image : List Word) : { s.withImage image with mem := s.mem } = s := rfl

/-- Each word of an image that fits reads as given, and every word above it as before. -/
theorem State.readWord_withImage (s : State) {image : List Word} (h : image.length ≤ s.cfg.memKiw.toNat * 1024)
    (n : Nat) : readWord (s.withImage image).mem n = image.getD n (readWord s.mem n) := by
  have e := readWord_writeWords image s.mem 0 n
  rw [Nat.zero_add] at e
  unfold State.withImage
  rw [List.take_of_length_le h]
  exact e

/-! ### Up to the instruction -/

/-- `u` differs from `s` in what polling and fetching may change alone. -/
structure Reached (s u : State) : Prop where
  /-- IP, the cached table, the free values, the older words, the requests. -/
  frame : { u with
    ip := s.ip, ptCache := s.ptCache, draws := s.draws, stale := s.stale, pendingTimer := s.pendingTimer,
    pendingIo := s.pendingIo, arrivals := s.arrivals } = s
  /-- The record of older words keeps its order. -/
  sorted : cellsSorted s.stale → cellsSorted u.stale
  /-- No older word joined it. -/
  fresh : ∀ p, cellGet s.stale p = none → cellGet u.stale p = none

section
variable {s u : State}

/-- Registers and the prefix are still there. -/
theorem Reached.regs (h : Reached s u) :
    u.regs = s.regs ∧ u.lr = s.lr ∧ u.sp = s.sp ∧ u.ofs = s.ofs ∧ u.fl = s.fl ∧ u.f1 = s.f1 ∧ u.f2 = s.f2 ∧
      u.ui = s.ui ∧ u.uiValid = s.uiValid :=
  have h := h.frame
  ⟨(congrArg State.regs h :), (congrArg State.lr h :), (congrArg State.sp h :), (congrArg State.ofs h :),
    (congrArg State.fl h :), (congrArg State.f1 h :), (congrArg State.f2 h :), (congrArg State.ui h :),
    (congrArg State.uiValid h :)⟩

/-- The level, the interrupt enable, the run state, memory and the constants are still there. -/
theorem Reached.system (h : Reached s u) :
    u.priv = s.priv ∧ u.intEnable = s.intEnable ∧ u.run = s.run ∧ u.mem = s.mem ∧ u.cfg = s.cfg ∧ u.iht = s.iht :=
  have h := h.frame
  ⟨(congrArg State.priv h :), (congrArg State.intEnable h :), (congrArg State.run h :), (congrArg State.mem h :),
    (congrArg State.cfg h :), (congrArg State.iht h :)⟩

/-- The page table registers, paging and the PID are still there. -/
theorem Reached.tables (h : Reached s u) :
    u.paging = s.paging ∧ u.ptBase = s.ptBase ∧ u.ptKnown = s.ptKnown ∧ u.ptAddr = s.ptAddr ∧ u.pid = s.pid ∧
      u.pidKnown = s.pidKnown :=
  have h := h.frame
  ⟨(congrArg State.paging h :), (congrArg State.ptBase h :), (congrArg State.ptKnown h :),
    (congrArg State.ptAddr h :), (congrArg State.pid h :), (congrArg State.pidKnown h :)⟩

/-- The interrupt record and what an entry saved are still there. -/
theorem Reached.record (h : Reached s u) :
    u.pxId = s.pxId ∧ u.pxIp = s.pxIp ∧ u.pxInfo0 = s.pxInfo0 ∧ u.pxInfo1 = s.pxInfo1 ∧ u.pxInfo2 = s.pxInfo2 ∧
      u.savedPriv = s.savedPriv ∧ u.savedUi = s.savedUi ∧ u.savedUiValid = s.savedUiValid :=
  have h := h.frame
  ⟨(congrArg State.pxId h :), (congrArg State.pxIp h :), (congrArg State.pxInfo0 h :),
    (congrArg State.pxInfo1 h :), (congrArg State.pxInfo2 h :), (congrArg State.savedPriv h :),
    (congrArg State.savedUi h :), (congrArg State.savedUiValid h :)⟩

/-- The ports are still there. -/
theorem Reached.ports (h : Reached s u) : u.portInputs = s.portInputs ∧ u.portTrace = s.portTrace :=
  ⟨(congrArg State.portInputs h.frame :), (congrArg State.portTrace h.frame :)⟩

end

/-- Polling reaches its state. -/
theorem Reached.poll (s : State) : Reached s s.poll :=
  ⟨(congrArg (fun x : State => { x with
      ip := s.ip, ptCache := s.ptCache, draws := s.draws, stale := s.stale }) s.poll_frame :),
    fun h => (congrArg State.stale s.poll_frame :) ▸ h, fun _ h => (congrArg State.stale s.poll_frame :) ▸ h⟩

/-- Polling and translating reach their state. -/
theorem Reached.translate (s : State) (va : Word) (kind : AccessKind) :
    Reached s (s.poll.translate va kind).2 :=
  have h := s.poll.translate_frame va kind
  ⟨(congrArg (fun x : State => { x with
      ip := s.ip, ptCache := s.ptCache, draws := s.draws, stale := s.stale, pendingTimer := s.pendingTimer,
      pendingIo := s.pendingIo, arrivals := s.arrivals }) h :).trans (Reached.poll s).frame,
    fun hs => (congrArg State.stale h :) ▸ (Reached.poll s).sorted hs,
    fun p hs => (congrArg State.stale h :) ▸ (Reached.poll s).fresh p hs⟩

/-- Polling, translating and fetching reach their state. -/
theorem Reached.fetched (s : State) (va v : Word) (kind : AccessKind) (pa : Nat) :
    Reached s (((s.poll.translate va kind).2.fetchAt pa).2.setIp v) :=
  have h := (s.poll.translate va kind).2.fetchAt_frame pa
  ⟨(congrArg (fun x : State => { x with
      ip := s.ip, ptCache := s.ptCache, draws := s.draws, stale := s.stale, pendingTimer := s.pendingTimer,
      pendingIo := s.pendingIo, arrivals := s.arrivals }) h.1 :).trans (Reached.translate s va kind).frame,
    fun hs => h.2.1 ((Reached.translate s va kind).sorted hs),
    fun p hs => h.2.2 p ((Reached.translate s va kind).fresh p hs)⟩

/-! ### The step -/

/-- What a step from `s` can answer. -/
inductive StepAnswer (s : State) : Result → Prop where
  /-- Nothing happens any more. -/
  | dead : s.run = .dead → StepAnswer s (.next s)
  /-- An external interrupt is taken. -/
  | external (u : State) (r : IntRecord) : s.run ≠ .dead → s.intEnable = true → Reached s u →
      (r.id = idTimer ∨ r.id = idIo) → StepAnswer s (.next (u.enter r))
  /-- The processor waits. -/
  | waiting : s.run = .halted → StepAnswer s (.next s.poll)
  /-- The fetch enters an interrupt. -/
  | fetchEntered (u : State) (r : IntRecord) : s.run = .running → s.intEnable = true → Reached s u →
      (r.id = idPageFault ∨ r.id = idPermission) → StepAnswer s (.next (u.enter r))
  /-- The fetch would enter an interrupt, with interrupts disabled. -/
  | fetchDoubleFault : s.intEnable = false → StepAnswer s (.fault .doubleFault)
  /-- The fetch's translation has no outcome. -/
  | fetchRefused (r : Refusal) : StepAnswer s (.refused r)
  /-- The word has a must-be-zero bit at 1. -/
  | reserved (w : Word) : StepAnswer s (.refused (.reservedEncoding w))
  /-- An instruction ran. -/
  | ran (i : Instr) (u : State) (r : Result) : s.run = .running → Reached s u → r = exec i u → ExecAnswer i u r →
      StepAnswer s r

section
variable {s : State} {body : Word → State → Result}

/-- Where IP translates, the fetch goes on with the word. -/
theorem fetchThen_ok {pa : Nat} (h : (s.translate s.ip .execute).1 = .ok pa) :
    fetchThen s body =
      body ((s.translate s.ip .execute).2.fetchAt pa).1
        (((s.translate s.ip .execute).2.fetchAt pa).2.setIp (s.ip + 1)) := by
  unfold fetchThen
  split <;> rename_i e <;> simp_all

theorem fetchThen_pageFault (h : (s.translate s.ip .execute).1 = .pageFault) :
    fetchThen s body = raise ⟨idPageFault, s.ip, s.ip, 0, 0⟩ (s.translate s.ip .execute).2 := by
  unfold fetchThen
  split <;> rename_i e <;> simp_all

theorem fetchThen_violation (h : (s.translate s.ip .execute).1 = .violation) :
    fetchThen s body =
      raise ⟨idPermission, s.ip + 1, s.ip, AccessKind.execute.code, 0⟩ (s.translate s.ip .execute).2 := by
  unfold fetchThen
  split <;> rename_i e <;> simp_all

theorem fetchThen_refused {r : Refusal} (h : (s.translate s.ip .execute).1 = .refused r) :
    fetchThen s body = .refused r := by
  unfold fetchThen
  split <;> rename_i e <;> simp_all

/-- A running machine with no interrupt due fetches. -/
theorem step_fetches (hr : s.run = .running) (hx : s.poll.takeExternal = none) :
    step s = fetchThen s.poll runWord := by
  unfold step
  rw [hr, hx]
  simp

end

/-- What a step can do. -/
theorem step_answer (s : State) : StepAnswer s (step s) := by
  unfold step
  split
  · rename_i h; exact .dead h
  · rename_i hd
    split
    · rename_i t ht
      obtain ⟨hi, u, r, rfl, hr, hu⟩ := State.takeExternal_some ht
      have hpoll := Reached.poll s
      refine .external u r hd (hpoll.system.2.1 ▸ hi) ⟨?_, fun hs => ?_, fun p hs => ?_⟩ hr
      · exact (congrArg (fun x : State => { x with
          ip := s.ip, ptCache := s.ptCache, draws := s.draws, stale := s.stale, pendingTimer := s.pendingTimer,
          pendingIo := s.pendingIo, arrivals := s.arrivals }) hu :).trans hpoll.frame
      · exact (congrArg State.stale hu :) ▸ hpoll.sorted hs
      · exact (congrArg State.stale hu :) ▸ hpoll.fresh p hs
    · split
      · rename_i h; exact .waiting h
      · rename_i hh
        have hrun : s.run = .running := by
          cases hrun : s.run
          · rfl
          · exact absurd hrun hh
          · exact absurd hrun hd
        have hen := (Reached.translate s s.poll.ip .execute)
        cases hx : (s.poll.translate s.poll.ip .execute).1 with
        | ok pa =>
          rw [fetchThen_ok hx]
          unfold runWord
          split
          · exact .ran _ _ _ hrun (Reached.fetched s _ _ _ pa) rfl (exec_answer _ _)
          · exact .reserved _
        | pageFault =>
          rw [fetchThen_pageFault hx]
          cases hi : s.intEnable with
          | true =>
            rw [raise_enabled _ (hen.system.2.1.trans hi)]
            exact .fetchEntered _ _ hrun hi hen (.inl rfl)
          | false => rw [raise_disabled _ (hen.system.2.1.trans hi)]; exact .fetchDoubleFault hi
        | violation =>
          rw [fetchThen_violation hx]
          cases hi : s.intEnable with
          | true =>
            rw [raise_enabled _ (hen.system.2.1.trans hi)]
            exact .fetchEntered _ _ hrun hi hen (.inr rfl)
          | false => rw [raise_disabled _ (hen.system.2.1.trans hi)]; exact .fetchDoubleFault hi
        | refused r => rw [fetchThen_refused hx]; exact .fetchRefused r

end Sys2Proof.Machine
end

