-- ==== Sys2Proof/Tests/Slice0.lean ====
section
/-! SUPPORT. Tests. Expected values are the spec's own: the words and outcomes of spec/95_test_vectors.md and
the examples in the instruction rules, named in each comment. After them, for each obligation that has
hypotheses, a concrete state and operands that meet them. -/

namespace Sys2Proof.Tests

open Sys2Proof Sys2Proof.Machine

/-! ## Well-formedness -/

/-- PXR and PXW of a reserved number are refused, at both ends of both ranges (R57). -/
theorem test_wellFormed_refuses_reserved_px :
    (Instr.pxr 0 4).wellFormed = false ∧ (Instr.pxr 0 9).wellFormed = false ∧
      (Instr.pxw 15 0).wellFormed = false ∧ (Instr.pxw 17 5).wellFormed = false ∧
      (Instr.pxw 30 0).wellFormed = false := by decide

/-- The numbers beside the ranges are accepted (R50). -/
theorem test_wellFormed_accepts_px :
    (Instr.pxr 0 3).wellFormed = true ∧ (Instr.pxr 0 10).wellFormed = true ∧
      (Instr.pxw 14 0).wellFormed = true ∧ (Instr.pxw 31 0).wellFormed = true := by decide

/-- An assembler does not emit a filled ignored field (R167). -/
theorem test_assembled_refuses_filled_ignored_field :
    (Instr.nop 1).assembled = false ∧ (Instr.irt 0xFF).assembled = false ∧ (Instr.pop 4 0x1F).assembled = false ∧
      (Instr.nop 0).assembled = true := by decide

/-! ## Decoding, one word for each constructor (95_test_vectors.md section 2) -/

theorem test_decode_reg_reg :
    decode 0x0228#16 = .ok (.prdR 1 2) ∧ decode 0x0229#16 = .ok (.pwrR 1 2) ∧
    decode 0x056A#16 = .ok (.xrd 3 .fl) ∧ decode 0x048B#16 = .ok (.xwrR .ofs 4) ∧
    decode 0x022C#16 = .ok (.mrdR 1 2) ∧ decode 0x022D#16 = .ok (.mwrR 1 2) ∧
    decode 0x022E#16 = .ok (.mroR 1 2) ∧ decode 0x022F#16 = .ok (.mwoR 1 2) ∧
    decode 0x0230#16 = .ok (.mulR 1 2) ∧ decode 0x0231#16 = .ok (.cmpR 1 2) ∧
    decode 0x0232#16 = .ok (.divR 1 2) ∧ decode 0x0233#16 = .ok (.tstR 1 2) ∧
    decode 0x0234#16 = .ok (.movR 1 2) ∧ decode 0x0238#16 = .ok (.addR 1 2) ∧
    decode 0x0239#16 = .ok (.subR 1 2) ∧ decode 0x023A#16 = .ok (.notR 1 2) ∧
    decode 0x023B#16 = .ok (.andR 1 2) ∧ decode 0x023C#16 = .ok (.orrR 1 2) ∧
    decode 0x023D#16 = .ok (.xorR 1 2) ∧ decode 0x023E#16 = .ok (.shlR 1 2) ∧
    decode 0x023F#16 = .ok (.shrR 1 2) := by decide

theorem test_decode_reg_imm :
    decode 0x4120#16 = .ok (.prdI 1 0x10) ∧ decode 0x4940#16 = .ok (.pwrI 0x10 2) ∧
    decode 0x5D4A#16 = .ok (.xwrI .lr 0x55) ∧ decode 0x6440#16 = .ok (.mrdI 2 0x40) ∧
    decode 0x6C40#16 = .ok (.mwrI 0x40 2) ∧ decode 0x7440#16 = .ok (.mroI 2 0x40) ∧
    decode 0x7C40#16 = .ok (.mwoI 0x40 2) ∧ decode 0x8026#16 = .ok (.mulI 1 3) ∧
    decode 0x8826#16 = .ok (.cmpI 1 3) ∧ decode 0x9026#16 = .ok (.divI 1 3) ∧
    decode 0x9826#16 = .ok (.tstI 1 3) ∧ decode 0xA2AB#16 = .ok (.movI 5 0xA5) ∧
    decode 0xC026#16 = .ok (.addI 1 3) ∧ decode 0xC826#16 = .ok (.subI 1 3) ∧
    decode 0xD026#16 = .ok (.notI 1 3) ∧ decode 0xD826#16 = .ok (.andI 1 3) ∧
    decode 0xE026#16 = .ok (.orrI 1 3) ∧ decode 0xE826#16 = .ok (.xorI 1 3) ∧
    decode 0xF026#16 = .ok (.shlI 1 3) ∧ decode 0xF826#16 = .ok (.shrI 1 3) := by decide

theorem test_decode_long :
    decode 0x0855#16 = .ok (.int 0xAA) ∧ decode 0x09FF#16 = .ok (.irt 0xFF) ∧ decode 0x0A00#16 = .ok (.hlt 0) ∧
    decode 0x0B00#16 = .ok (.hcf 0) ∧ decode 0x0E98#16 = .ok (.pxr 4 12) ∧ decode 0x0F1F#16 = .ok (.pxw 31 0) ∧
    decode 0x0F42#16 = .ok (.pxw 1 2) ∧ decode 0xA89F#16 = .ok (.pop 4 0x1F) ∧
    decode 0xA920#16 = .ok (.psh 1 0) ∧ decode 0xAA5F#16 = .ok (.calR 2 0x1F) ∧
    decode 0xABE0#16 = .ok (.jmpR 7 0) ∧ decode 0xAC10#16 = .ok (.ret 1) ∧ decode 0xAFFF#16 = .ok (.nop 0xFF) := by
  decide

theorem test_decode_jumps_and_moves :
    decode 0x1001#16 = .ok (.calI 0x400) ∧ decode 0x1868#16 = .ok (.jmpI 0x034) ∧
    decode 0x27D3#16 = .ok (.jcu .l001 0xFD) ∧ decode 0x2D56#16 = .ok (.jcs .l011 0x55) ∧
    decode 0x3000#16 = .ok (.prog 0 0) ∧ decode 0x3FFF#16 = .ok (.prog 15 0xFF) ∧
    decode 0xB462#16 = .ok (.mcu .l001 3 4) ∧ decode 0xB8EC#16 = .ok (.mcs .l110 7 0) := by decide

theorem test_decode_invalid_rows :
    decode 0x07E0#16 = .ok (.invRR00 7 7) ∧ decode 0x0001#16 = .ok (.invRR01 0 0) ∧
    decode 0x0002#16 = .ok (.invRR02 0 0) ∧ decode 0x0003#16 = .ok (.invRR03 0 0) ∧
    decode 0x0004#16 = .ok (.invRR04 0 0) ∧ decode 0x0005#16 = .ok (.invRR05 0 0) ∧
    decode 0x0006#16 = .ok (.invRR06 0 0) ∧ decode 0x0007#16 = .ok (.invRR07 0 0) ∧
    decode 0x0015#16 = .ok (.invRR15 0 0) ∧ decode 0x0016#16 = .ok (.invRR16 0 0) ∧
    decode 0x0017#16 = .ok (.invRR17 0 0) ∧ decode 0x0C00#16 = .ok (.invL0C 0) ∧
    decode 0x0DFF#16 = .ok (.invL0D 0xFF) ∧ decode 0xAD00#16 = .ok (.invLAD 0) ∧
    decode 0xAEFF#16 = .ok (.invLAE 0xFF) ∧ decode 0x57FF#16 = .ok (.invS0A 0x7FF) := by decide

theorem test_decode_refuses_must_be_zero :
    decode 0xB001#16 = .error .mustBeZeroBit ∧ decode 0xB010#16 = .error .mustBeZeroBit ∧
    decode 0xB811#16 = .error .mustBeZeroBit ∧ decode 0xAC01#16 = .error .mustBeZeroBit ∧
    decode 0xAC5F#16 = .error .mustBeZeroBit := by decide

/-- Every immediate length, encoded as section 2.1 prints it. -/
theorem test_encode_immediates :
    encode (.movI 0 0x7F) = 0xA71E#16 ∧ encode (.jmpI 0x3FF) = 0x1FFE#16 ∧ encode (.calI 0x2AA) = 0x1554#16 ∧
    encode (.jcu .l111 0x80) = 0x200F#16 ∧ encode (.jcs .l101 0xFF) = 0x2FFB#16 ∧
    encode (.int 0x7F) = 0x08FE#16 ∧ encode (.pxr 0 15) = 0x0E1E#16 ∧ encode (.pxw 10 7) = 0x0FF4#16 := by decide

theorem test_decodeTableWord :
    decodeTableWord 16 0x0238 = some (.addR 1 2) ∧ decodeTableWord 16 0xAC01 = none := by decide

/-! ## One step of each instruction -/

/-- The start state of 95_test_vectors.md, with the instruction at 0100: `ip` is already the next address. -/
def start : State :=
  { State.reset with ip := 0x0101, iht := Vector.ofFn fun n : Fin 256 => BitVec.ofNat 16 (0x0400 + n.val) }

/-- What a part of the state is after an instruction that answers a next state. -/
def after {α : Type} (r : Result) (f : State → α) : Option α :=
  match r with
  | .next t => some (f t)
  | _ => none

/-- The interrupt record. -/
def record (t : State) : List Word := [t.pxId, t.pxIp, t.pxInfo0, t.pxInfo1, t.pxInfo2]

/-- `start` at user level. -/
def user : State := { start with priv := .user }

/-- R281: 7FFF + 1 overflows. -/
theorem test_add_overflows :
    after (exec (.addR 2 3) ((start.setReg 2 0x7FFF).setReg 3 1)) (fun t => (t.reg 2, t.fl.toWord)) =
      some (0x8000, 0xC) := by decide

/-- R281: big-int adds the carry. -/
theorem test_add_takes_carry :
    after (exec (.addR 1 2) { (start.setReg 1 1).setReg 2 2 with f1 := 1, fl := ⟨false, false, true, false⟩ })
      (fun t => (t.reg 1, t.fl.toWord)) = some (4, 0) := by decide

/-- R282: 0 - 1 borrows. -/
theorem test_sub_borrows :
    after (exec (.subI 1 1) start) (fun t => (t.reg 1, t.fl.toWord)) = some (0xFFFF, 0xA) := by decide

/-- R282: big-int, 0 - FFFF - 1. -/
theorem test_sub_takes_borrow :
    after (exec (.subR 1 2) { start.setReg 2 0xFFFF with f1 := 1, fl := ⟨false, false, true, false⟩ })
      (fun t => (t.reg 1, t.fl.toWord)) = some (0, 3) := by decide

/-- R262: CMP leaves its register. -/
theorem test_cmp_keeps_register :
    after (exec (.cmpR 1 2) ((start.setReg 1 5).setReg 2 7)) (fun t => (t.reg 1, t.fl.c, t.fl.z)) =
      some (5, true, false) := by decide

/-- R283: NOT complements its second operand. -/
theorem test_not_complements_source :
    after (exec (.notR 1 2) (start.setReg 2 0x00FF)) (fun t => (t.reg 1, t.fl.s, t.fl.z)) =
      some (0xFF00, true, false) := by decide

/-- R284. -/
theorem test_and : after (exec (.andR 1 2) ((start.setReg 1 0xF0F0).setReg 2 0x8FF0)) (fun t => t.reg 1) =
    some 0x80F0 := by decide

/-- R285. -/
theorem test_orr : after (exec (.orrR 1 2) ((start.setReg 1 0x0F00).setReg 2 0x00F0)) (fun t => t.reg 1) =
    some 0x0FF0 := by decide

/-- R286: XOR of a register with itself. -/
theorem test_xor_clears : after (exec (.xorR 1 1) (start.setReg 1 0x1234)) (fun t => (t.reg 1, t.fl.z)) =
    some (0, true) := by decide

/-- R287: the count is not taken modulo 16. -/
theorem test_shl_by_sixteen : after (exec (.shlI 1 16) (start.setReg 1 0x0123)) (fun t => (t.reg 1, t.fl.z)) =
    some (0, true) := by decide

/-- R287. -/
theorem test_shl : after (exec (.shlI 1 4) (start.setReg 1 0x0123)) (fun t => t.reg 1) = some 0x1230 := by
  decide

/-- R288: with F1.S the sign enters from the left. -/
theorem test_shr_signed : after (exec (.shrI 1 4) { start.setReg 1 0x8010 with f1 := 2 }) (fun t => t.reg 1) =
    some 0xF801 := by decide

/-- R288: signed, a count above 15. -/
theorem test_shr_signed_by_sixteen :
    after (exec (.shrI 1 16) { start.setReg 1 0x8000 with f1 := 2 }) (fun t => t.reg 1) = some 0xFFFF := by
  decide

/-- R260: the low half. -/
theorem test_mul_low_half : after (exec (.mulI 1 3) (start.setReg 1 0xFFFF)) (fun t => (t.reg 1, t.fl.s)) =
    some (0xFFFD, true) := by decide

/-- R264: signed division is toward zero. -/
theorem test_div_signed : after (exec (.divI 1 3) { start.setReg 1 0xFFF9 with f1 := 2 }) (fun t => t.reg 1) =
    some 0xFFFE := by decide

/-- R264, R334: a zero divisor. -/
theorem test_div_by_zero : after (exec (.divI 1 0) start) record = some [4, 0x0101, 0, 0, 0] := by
  decide

/-- R266: TST stores nothing. -/
theorem test_tst : after (exec (.tstR 1 1) (start.setReg 1 0x8000)) (fun t => (t.reg 1, t.fl.s, t.fl.z)) =
    some (0x8000, true, false) := by decide

/-- R268: a prefix supplies the upper byte, and is used up. -/
theorem test_mov_prefixed :
    after (exec (.movI 0 0x34) { start with ui := 0x12, uiValid := true }) (fun t => (t.reg 0, t.ui, t.uiValid)) =
      some (0x1234, 0, false) := by decide

/-- R275: C = 1 means less. -/
theorem test_mcu : after (exec (.mcu .l100 1 2) { start.setReg 2 9 with fl := ⟨false, false, true, false⟩ })
    (fun t => t.reg 1) = some 9 := by decide

/-- R276: S = O and Z = 0 means greater. -/
theorem test_mcs : after (exec (.mcs .l001 3 4) (start.setReg 4 9)) (fun t => t.reg 3) = some 9 := by
  decide

/-- R200. -/
theorem test_cal_backwards : after (exec (.calI 0x400) start) (fun t => (t.lr, t.ip)) = some (0x0101, 0xFD01) := by
  decide

/-- R205: relative, and wraps. -/
theorem test_cal_register : after (exec (.calR 2 0) (start.setReg 2 0xFFF0)) (fun t => (t.lr, t.ip)) =
    some (0x0101, 0x00F1) := by decide

/-- R201: a valid prefix of 0 stops the sign extension (95 section 3). -/
theorem test_jmp_prefix_zero : after (exec (.jmpI 0x7FF) { start with uiValid := true }) (fun t => t.ip) =
    some 0x0200 := by decide

/-- R206. -/
theorem test_jmp_register : after (exec (.jmpR 7 0) (start.setReg 7 0x10)) (fun t => t.ip) = some 0x0111 := by
  decide

/-- R202: C = 0, Z = 1 is less or equal. -/
theorem test_jcu_taken : after (exec (.jcu .l110 5) { start with fl := ⟨false, false, false, true⟩ })
    (fun t => t.ip) = some 0x0106 := by decide

/-- R203: S = O is not less. -/
theorem test_jcs_not_taken : after (exec (.jcs .l100 0xFE) { start with fl := ⟨true, true, false, false⟩ })
    (fun t => t.ip) = some 0x0101 := by decide

/-- R207. -/
theorem test_ret : after (exec (.ret 0xA) { start with lr := 0x0222 }) (fun t => (t.ip, t.fl.toWord, t.lr)) =
    some (0x0222, 0xA, 0x0222) := by decide

/-- R208: a NOP cancels the prefix. -/
theorem test_nop : after (exec (.nop 0xFF) { start with ui := 0x12, uiValid := true })
    (fun t => (t.ip, t.ui, t.uiValid)) = some (0x0101, 0, false) := by decide

/-- R220. -/
theorem test_prd : after (exec (.prdI 1 0x10) { start with portInputs := [0xBEEF] })
    (fun t => (t.reg 1, t.portTrace)) = some (0xBEEF, [.read 0x10 0xBEEF]) := by decide

/-- R221: the word 0041 goes to port 3. -/
theorem test_pwr : after (exec (.pwrR 1 2) ((start.setReg 1 3).setReg 2 0x41)) (fun t => t.portTrace) =
    some [.write 3 0x41] := by decide

/-- R226: IP reads as the next address. -/
theorem test_xrd_ip : after (exec (.xrd 0 .ip) start) (fun t => t.reg 0) = some 0x0101 := by decide

/-- R227: a second prefix keeps its low byte. -/
theorem test_xwr_ui : after (exec (.xwrI .cfui 0x34) { start with ui := 0x12, uiValid := true })
    (fun t => (t.ui, t.uiValid)) = some (0x34, true) := by decide

/-- R227: the absolute jump. -/
theorem test_xwr_ip : after (exec (.xwrI .ip 0x40) start) (fun t => t.ip) = some 0x0040 := by decide

/-- R240. -/
theorem test_mrd : after (exec (.mrdR 3 4) { start.setReg 4 0x2000 with mem := writeWord [] 0x2000 0xABCD })
    (fun t => t.reg 3) = some 0xABCD := by decide

/-- R241. -/
theorem test_mwr : after (exec (.mwrI 0x40 3) (start.setReg 3 0x1234)) (fun t => readWord t.mem 0x0040) =
    some 0x1234 := by decide

/-- R242: the sum wraps. -/
theorem test_mro_wraps :
    after (exec (.mroR 1 2) { start.setReg 2 2 with ofs := 0xFFFF, mem := writeWord [] 1 0x55 })
      (fun t => t.reg 1) = some 0x55 := by decide

/-- R243. -/
theorem test_mwo : after (exec (.mwoI 2 1) { start.setReg 1 0x77 with ofs := 0x8000 })
    (fun t => readWord t.mem 0x8002) = some 0x77 := by decide

/-- R248. -/
theorem test_pop : after (exec (.pop 4 0) { start with sp := 0x7FFE, mem := writeWord [] 0x7FFE 0xAA })
    (fun t => (t.reg 4, t.sp)) = some (0xAA, 0x7FFF) := by decide

/-- R249. -/
theorem test_psh : after (exec (.psh 4 0) { start.setReg 4 0xAA with sp := 0x8000 })
    (fun t => (readWord t.mem 0x7FFF, t.sp)) = some (0xAA, 0x7FFF) := by decide

/-- R180: a software interrupt from user level (95 section 4). -/
theorem test_int_software :
    after (exec (.int 0x80) (((user.setReg 0 7).setReg 1 8).setReg 2 9)) record =
      some [0x80, 0x0101, 7, 8, 9] := by decide

/-- R180: `int 1` records its own address. -/
theorem test_int_one : after (exec (.int 1) start) (fun t => (t.pxId, t.pxIp)) =
    some (1, 0x0100) := by decide

/-- R303: the handler of interrupt 80 starts at the 80th entry of the table. -/
theorem test_int_vector : after (exec (.int 0x80) start) (fun t => t.ip) = some 0x0480 := by decide +kernel

/-- R181. -/
theorem test_irt :
    after (exec (.irt 0) { start with
        pxIp := 0x0201, savedPriv := .user, savedUi := 0x12, savedUiValid := true, intEnable := false })
      (fun t => (t.ip, t.priv, t.ui, t.uiValid, t.intEnable)) = some (0x0201, .user, 0x12, true, true) := by
  decide

/-- R332: HLT at user level. -/
theorem test_hlt_user : after (exec (.hlt 0) user) record = some [2, 0x0101, 0x0A00, 1, 0] := by
  decide

/-- R182. -/
theorem test_hlt : after (exec (.hlt 0) { start with intEnable := false }) (fun t => (t.run, t.intEnable)) =
    some (.halted, true) := by decide

/-- R183. -/
theorem test_hcf : after (exec (.hcf 0) start) (fun t => (t.run, t.intEnable)) = some (.dead, false) := by
  decide

/-- R184: PX[2] is the memory size. -/
theorem test_pxr : after (exec (.pxr 1 2) start) (fun t => t.reg 1) = some 0x0040 := by decide

/-- R185: PX[2] cannot be written, PX[11] can. -/
theorem test_pxw : after (exec (.pxw 2 0) (start.setReg 0 0x1234)) (fun t => (t.cfg.memKiw, t.pxIp)) =
    some (0x40, 0) ∧
    after (exec (.pxw 11 0) (start.setReg 0 0x1234)) (fun t => t.pxIp) = some 0x1234 := by decide

/-- R186: disabling takes priority over enabling. -/
theorem test_update_disable_wins : after (exec (.pxw 31 0) (start.setReg 0 0x0030)) (fun t => t.intEnable) =
    some false := by decide

/-- R187: interrupt 6 where CF.P = 0. -/
theorem test_prog : after (exec (.prog 0 0) start) record = some [6, 0x0101, 0x3000, 0, 0] := by
  decide

/-- R165: an invalid word. -/
theorem test_invalid : after (exec (.invS0A 0x7FF) start) record = some [6, 0x0101, 0x57FF, 0, 0] := by
  decide

/-- R336: MUL where CF.M = 0. -/
theorem test_mul_absent : after (exec (.mulR 1 2) { start with cfg := { start.cfg with cf := 0 } }) record =
    some [6, 0x0101, 0x0230, 0, 0] := by decide

/-- R310: the first step from reset runs the word that is planted. -/
theorem test_first_step_runs_planted_word :
    after (step (State.reset.withFetchWord 16 0xA308)) (fun t => (t.reg 0, t.ip)) = some (0x34, 1) := by decide

/-! ## Witnesses: for each obligation with hypotheses, values that meet them together, each clause its own and at
the ends of its ranges -/

/-- `start` with paging on, the entry of every page `e`, and the entry of page 0 in memory too. -/
def paged (e : Word) : State :=
  { start with
    paging := true, ptKnown := true, ptBase := 0x0700, ptCache := Vector.replicate 32 e,
    mem := writeWord [] 0x0700 e }

/-- `start` without extensions. -/
def bare : State := { start with cfg := { start.cfg with cf := 0 } }

theorem witness_EncodeOfDecode : decode 0x0238#16 = .ok (.addR 1 2) := by decide

theorem witness_MustBeZeroWordsAreRefused :
    (mustBeZeroWord 0xB001 ∧ mustBeZeroWord 0xB010 ∧ mustBeZeroWord 0xBFFF ∧ mustBeZeroWord 0xAC01 ∧
      mustBeZeroWord 0xAC08) ∧ ¬ mustBeZeroWord 0xB000 ∧ ¬ mustBeZeroWord 0xACF0 := by
  unfold mustBeZeroWord
  decide

theorem witness_InvalidWordsRaiseInterrupt6 :
    invalidWord 0x0000 ∧ invalidWord 0x0007 ∧ invalidWord 0x0015 ∧ invalidWord 0x07F7 ∧ invalidWord 0x0C00 ∧
      invalidWord 0x0DFF ∧ invalidWord 0xAD00 ∧ invalidWord 0xAEFF ∧ invalidWord 0x5000 ∧ invalidWord 0x57FF ∧ start.intEnable = true :=
  ⟨.inl ⟨by decide, by decide⟩, .inl ⟨by decide, by decide⟩, .inl ⟨by decide, by decide⟩,
    .inl ⟨by decide, by decide⟩, .inr (.inl (by decide)), .inr (.inl (by decide)),
    .inr (.inl (by decide)), .inr (.inl (by decide)), .inr (.inr (by decide)), .inr (.inr (by decide)),
    rfl⟩

theorem witness_InvalidRowsEnterInterrupt6 :
    invalidRow (.invRR00 0 0) = true ∧ invalidRow (.invLAE 0) = true ∧ start.intEnable = true := by decide

/-- The operand of both forms, as ADD, SUB, CMP, TST, SHL, SHR, MUL and DIV take it. -/
theorem witness_AddGivesSumAndFlags :
    ((∃ rs, Instr.addR 1 2 = .addR 1 rs ∧ start.reg 2 = start.reg rs) ∨
      (∃ imm, Instr.addR 1 2 = .addI 1 imm ∧ start.reg 2 = start.ui ++ imm)) ∧
    ((∃ rs, Instr.addI 1 3 = .addR 1 rs ∧ (3 : Word) = start.reg rs) ∨
      (∃ imm, Instr.addI 1 3 = .addI 1 imm ∧ (3 : Word) = start.ui ++ imm)) :=
  ⟨.inl ⟨2, rfl, rfl⟩, .inr ⟨3, rfl, rfl⟩⟩

theorem witness_SubGivesDifferenceAndFlags :
    (∃ rs, Instr.subR 1 2 = .subR 1 rs ∧ start.reg 2 = start.reg rs) ∨
      (∃ imm, Instr.subR 1 2 = .subI 1 imm ∧ start.reg 2 = start.ui ++ imm) := .inl ⟨2, rfl, rfl⟩

theorem witness_CmpSetsFlagsOfDifference :
    (∃ rs, Instr.cmpI 1 3 = .cmpR 1 rs ∧ (3 : Word) = start.reg rs) ∨
      (∃ imm, Instr.cmpI 1 3 = .cmpI 1 imm ∧ (3 : Word) = start.ui ++ imm) := .inr ⟨3, rfl, rfl⟩

theorem witness_ConditionCodesMeanComparisons :
    carryOf start = 0 ∧ carryOf { start with f1 := 1 } = 0 ∧
      carryOf { start with f1 := 1, fl := ⟨false, false, true, false⟩ } = 1 := by decide

theorem witness_TstSetsSignAndZero :
    (∃ rs, Instr.tstR 1 2 = .tstR 1 rs ∧ start.reg 2 = start.reg rs) ∨
      (∃ imm, Instr.tstR 1 2 = .tstI 1 imm ∧ start.reg 2 = start.ui ++ imm) := .inl ⟨2, rfl, rfl⟩

theorem witness_ShlMultipliesByPowerOfTwo :
    (∃ rs, Instr.shlI 1 16 = .shlR 1 rs ∧ (16 : Word) = start.reg rs) ∨
      (∃ imm, Instr.shlI 1 16 = .shlI 1 imm ∧ (16 : Word) = start.ui ++ imm) := .inr ⟨16, rfl, rfl⟩

theorem witness_ShrDividesByPowerOfTwo :
    (∃ rs, Instr.shrI 1 15 = .shrR 1 rs ∧ (15 : Word) = start.reg rs) ∨
      (∃ imm, Instr.shrI 1 15 = .shrI 1 imm ∧ (15 : Word) = start.ui ++ imm) := .inr ⟨15, rfl, rfl⟩

theorem witness_MulGivesLowHalf :
    ((∃ rs, Instr.mulR 1 2 = .mulR 1 rs ∧ start.reg 2 = start.reg rs) ∨
      (∃ imm, Instr.mulR 1 2 = .mulI 1 imm ∧ start.reg 2 = start.ui ++ imm)) ∧
    start.cfg.cf.getLsbD 0 = true ∧ bare.cfg.cf.getLsbD 0 = false ∧ bare.intEnable = true :=
  ⟨.inl ⟨2, rfl, rfl⟩, by decide⟩

/-- Every clause: no extension; unsigned; signed, beside the corner on both sides; the corner; a zero divisor. -/
theorem witness_DivGivesQuotient :
    ((∃ rs, Instr.divI 1 7 = .divR 1 rs ∧ (7 : Word) = start.reg rs) ∨
      (∃ imm, Instr.divI 1 7 = .divI 1 imm ∧ (7 : Word) = start.ui ++ imm)) ∧
    (bare.cfg.cf.getLsbD 1 = false ∧ bare.intEnable = true) ∧ start.cfg.cf.getLsbD 1 = true ∧
    ((7 : Word) ≠ 0 ∧ start.f1.getLsbD 1 = false) ∧ { start with f1 := 2 }.f1.getLsbD 1 = true ∧
    ¬ ((0x8001 : Word).toInt = -32768 ∧ (0xFFFF : Word).toInt = -1) ∧
    ¬ ((0x8000 : Word).toInt = -32768 ∧ (0x0001 : Word).toInt = -1) ∧
    ((0x8000 : Word).toInt = -32768 ∧ (0xFFFF : Word).toInt = -1) ∧
    ((0 : Word) = 0 ∧ start.intEnable = true) :=
  ⟨.inr ⟨7, rfl, rfl⟩, by decide⟩

/-- AND, which needs no extension, and DIV by zero on a machine that has it. -/
theorem witness_UndefinedFlagsAreFreshDraws :
    (∃ t, exec (.andR 1 2) start = .next t ∧ ∀ e, extensionOf (.andR 1 2) = some e → start.hasExt e = true) ∧
    (∃ t, exec (.divI 1 0) start = .next t ∧ ∀ e, extensionOf (.divI 1 0) = some e → start.hasExt e = true) :=
  ⟨⟨_, rfl, fun _ h => nomatch h⟩, ⟨_, rfl, fun e h => by cases h; rfl⟩⟩

theorem witness_ConditionalMoves :
    ((Instr.mcu .l111 1 2 = .mcu .l111 1 2 ∧
        HoldsU start.cfg.legSense start.fl .l111 = HoldsU start.cfg.legSense start.fl .l111) ∨
      (Instr.mcu .l111 1 2 = .mcs .l111 1 2 ∧
        HoldsU start.cfg.legSense start.fl .l111 = HoldsS start.cfg.legSense start.fl .l111)) ∧
    start.cfg.cf.getLsbD 3 = true ∧ bare.cfg.cf.getLsbD 3 = false ∧ bare.intEnable = true ∧
      HoldsU start.cfg.legSense start.fl .l111 ∧ ¬ HoldsS start.cfg.legSense start.fl .l000 :=
  ⟨.inl ⟨rfl, rfl⟩, by decide, by decide, rfl, trivial, id⟩

theorem witness_ConditionalJumps :
    ((Instr.jcu .l011 4 = .jcu .l011 4 ∧
        HoldsU start.cfg.legSense start.fl .l011 = HoldsU start.cfg.legSense start.fl .l011) ∨
      (Instr.jcu .l011 4 = .jcs .l011 4 ∧
        HoldsU start.cfg.legSense start.fl .l011 = HoldsS start.cfg.legSense start.fl .l011)) ∧
    HoldsU start.cfg.legSense start.fl .l011 ∧ ¬ HoldsS start.cfg.legSense start.fl .l100 :=
  ⟨.inl ⟨rfl, rfl⟩, rfl, fun h => h rfl⟩

theorem witness_PortAccesses :
    start.priv = .supervisor ∧ { start with portInputs := [7] }.portInputs = 7 :: [] ∧
      ((Instr.prdR 1 2 = .prdR 1 2 ∧ start.reg 2 = start.reg 2) ∨
        (Instr.prdR 1 2 = .prdI 1 0 ∧ start.reg 2 = start.ui ++ 0#8)) := ⟨rfl, rfl, .inl ⟨rfl, rfl⟩⟩

/-- A write to F1 that leaves its reserved bits, and one to F2. -/
theorem witness_XwrWritesExternalRegister :
    ((∃ rs, Instr.xwrI .f1 3 = .xwrR .f1 rs ∧ (3 : Word) = start.reg rs) ∨
      (∃ imm, Instr.xwrI .f1 3 = .xwrI .f1 imm ∧ (3 : Word) = start.ui ++ imm)) ∧
    (3 : Word) &&& 0xFFFC#16 = start.f1 &&& 0xFFFC#16 ∧ (1 : Word) &&& 0xFFFE#16 = start.f2 &&& 0xFFFE#16 :=
  ⟨.inr ⟨3, rfl, rfl⟩, by decide⟩

/-- Unpaged, at the last address, and paged. -/
theorem witness_LoadsReadTheWord :
    ((Instr.mrdI 1 0x23 = .mrdR 1 2 ∧ (0x0123 : Word) = (paged 0xF001).reg 2) ∨
      (Instr.mrdI 1 0x23 = .mrdI 1 0x23 ∧ (0x0123 : Word) = { paged 0xF001 with ui := 1, uiValid := true }.ui ++ 0x23#8)) ∧
    ({ paged 0xF001 with ui := 1, uiValid := true }.translate 0x0123 .read).1 = .ok 0x0923 ∧
    (start.translate 0xFFFF .read).1 = .ok 0xFFFF ∧ ((paged 0xF001).translate 0x0123 .read).1 = .ok 0x0923 := by
  decide

theorem witness_StoresWriteTheWord :
    ((Instr.mwrI 0x40 2 = .mwrR 1 2 ∧ (0x40 : Word) = start.reg 1) ∨
      (Instr.mwrI 0x40 2 = .mwrI 0x40 2 ∧ (0x40 : Word) = start.ui ++ 0x40#8)) ∧
    (start.translate 0x40 .write).1 = .ok 0x40 ∧ (start.translate 0 .write).1 = .ok 0 ∧ ((paged 0xF01F).translate 0x07FF .write).1 = .ok 0xFFFF := by decide

theorem witness_PopReadsThenRaisesSp :
    ({ start with sp := 0xFFFF }.translate { start with sp := 0xFFFF }.sp .read).1 = .ok 0xFFFF := by decide

theorem witness_PshLowersSpThenWrites : (start.translate (start.sp - 1) .write).1 = .ok 0xFFFF := by decide

/-- A data access, one with a prefixed immediate, and a fetch of a page that is not present. -/
theorem witness_PageFaultIsRestartable :
    (dataAccessOf (paged 0) (.mrdI 1 0x40) = some (0x40, .read, false) ∧
      ((paged 0).translate 0x40 .read).1 = .pageFault ∧ (paged 0).intEnable = true) ∧
    ((paged 0).run = .running ∧ (paged 0).arrivals = [] ∧ (paged 0).pendingTimer = false ∧
      (paged 0).pendingIo = [] ∧ ((paged 0).translate (paged 0).ip .execute).1 = .pageFault) ∧
    (let s : State := { paged 0 with ui := 1, uiValid := true }
     dataAccessOf s (.mwoI 0x40 1) = some (0x140, .write, true) ∧ (s.translate 0x140 .write).1 = .pageFault ∧
       s.intEnable = true) := by decide

/-- Present, at user level, without the permission: a store, a load and a fetch. -/
theorem witness_PermissionViolationIsRecorded :
    let s : State := { paged 0x8000 with priv := .user }
    (dataAccessOf s (.mwrI 0x40 1) = some (0x40, .write, false) ∧ (s.translate 0x40 .write).1 = .violation ∧
      s.intEnable = true) ∧
    (dataAccessOf s (.pop 0 0) = some (0, .read, false) ∧ (s.translate 0 .read).1 = .violation) ∧
    (s.run = .running ∧ s.arrivals = [] ∧ s.pendingTimer = false ∧ s.pendingIo = [] ∧
      (s.translate s.ip .execute).1 = .violation) := by decide

theorem witness_UnpagedAddressesAreUnchanged : start.paging = false := by decide

/-- The clauses at their ends: not present, forbidden, the last frame of memory and the one after it. -/
theorem witness_PagedTranslation :
    ((paged 0x7FFF).paging = true ∧ (paged 0x7FFF).ptKnown = true) ∧
    ((paged 0x7FFF).effectivePte (pageOf 0)).1 = 0x7FFF ∧ ((paged 0x8000).effectivePte (pageOf 0)).1 = 0x8000 ∧
    ({ paged 0xF000 with ptKnown := false }.paging = true ∧ { paged 0xF000 with ptKnown := false }.ptKnown = false) ∧
    ((paged 0xF01F).translate 0 .read).1 = .ok 0xF800 ∧
    ((paged 0xF020).translate 0 .read).1 = .refused (.frameBeyondMemory 32) ∧
    ({ paged 0x8000 with priv := .user }.translate 0 .execute).1 = .violation := by decide

/-- Not present; present and as in memory; present and changed in memory. -/
theorem witness_EntryInForce :
    (paged 0x7FFF).ptCache[(0 : BitVec 5).toNat].getLsbD 15 = false ∧
    ((paged 0x8000).ptCache[(0 : BitVec 5).toNat].getLsbD 15 = true ∧
      (paged 0x8000).ptCache[(0 : BitVec 5).toNat] = readWord (paged 0x8000).mem (0x0700 + 0)) ∧
    { paged 0x8000 with mem := [] }.ptCache[(0 : BitVec 5).toNat] ≠ readWord [] (0x0700 + 0) := by decide

theorem witness_LoadSeesMostRecentStore : (5 : Nat) ≠ 4 := by decide

/-- F2.P on and off; no older word on record, and a step; older words on record. -/
theorem witness_FetchOfStoredWords :
    { start with f2 := 1 }.f2.getLsbD 0 = true ∧ start.f2.getLsbD 0 = false ∧
      (cellGet start.stale 4 = none ∧ ∃ t, step start = .next t) ∧
      cellGet { start with stale := [(4, [7, 6])] }.stale 4 = some [7, 6] := ⟨rfl, rfl, ⟨rfl, _, rfl⟩, rfl⟩

/-- With F2.P = 0: a store of 1 over 0, a fetch, a store of 2. Both 1, the word before the store that follows the
fetch, and 0 are on record (20_memory.md R116). -/
theorem test_fetch_keeps_each_older_word :
    (((start.store 4 1).fetchAt 4).2.store 4 2).olderWords 4 = [1, 0] := by decide

/-- With F2.P = 1 a store leaves nothing on record (20_memory.md R116). -/
theorem test_protected_store_clears_record :
    ({ start.store 4 1 with f2 := 1 }.store 4 2).olderWords 4 = [] := by decide

/-- The image of 70_reset_and_hazards.md R372: word 0 at address 0, word 1 at address 1. -/
theorem test_boot_image :
    readWord (State.boot [0xA308, 0x0B00]).mem 0 = 0xA308 ∧ readWord (State.boot [0xA308, 0x0B00]).mem 1 = 0x0B00 ∧
      after (step (State.boot [0xA308, 0x0B00])) (fun t => (t.ip, t.reg 0)) = some (1, 0x34) := by decide

theorem witness_BootRunsImage :
    [0xA308#16, 0x0B00#16].length ≤ 65536 ∧ [0xA308#16, 0x0B00#16][1]? = some 0x0B00#16 ∧
      [0xA308#16, 0x0B00#16].length ≤ 2 ∧ [0xA308#16, 0x0B00#16] = 0xA308#16 :: [0x0B00#16] ∧
      decode 0xA308#16 = .ok (.movI 0 0x34) := by decide

/-- Ids 63 and 64 at both levels, and interrupts disabled. -/
theorem witness_IntEntersInterrupt :
    (64 ≤ (64 : BitVec 8).toNat ∧ start.intEnable = true) ∧
    ((63 : BitVec 8).toNat < 64 ∧ start.priv = .supervisor) ∧ (user.priv = .user ∧ user.intEnable = true) ∧
    { start with intEnable := false }.intEnable = false := by decide

theorem witness_IrtRestores : start.priv = .supervisor ∧ user.priv = .user ∧ user.intEnable = true := by decide

theorem witness_HltAndHcfHalt :
    start.priv = .supervisor ∧ { start with run := .dead }.run = .dead ∧
      ({ start with run := .halted }.run = .halted ∧ start.arrivals = [] ∧ start.pendingTimer = false ∧
        start.pendingIo = []) := by decide

/-- PX[0] known and not known; both ends of both reserved ranges. -/
theorem witness_PxrReadsRegister :
    start.priv = .supervisor ∧ start.pidKnown = true ∧ { start with pidKnown := false }.pidKnown = false ∧
    (4 ≤ (4 : BitVec 5).toNat ∧ (4 : BitVec 5).toNat ≤ 9) ∧ (4 ≤ (9 : BitVec 5).toNat ∧ (9 : BitVec 5).toNat ≤ 9) ∧
    (15 ≤ (15 : BitVec 5).toNat ∧ (15 : BitVec 5).toNat ≤ 30) ∧
    (15 ≤ (30 : BitVec 5).toNat ∧ (30 : BitVec 5).toNat ≤ 30) := by decide

theorem witness_PxwWritesRegister :
    start.priv = .supervisor ∧ (4 ≤ (9 : BitVec 5).toNat ∧ (9 : BitVec 5).toNat ≤ 9) ∧
      (15 ≤ (15 : BitVec 5).toNat ∧ (15 : BitVec 5).toNat ≤ 30) := by decide

/-- A value with bit 6; a flush of the first table outside frame 0, and of the last one inside it. -/
theorem witness_UpdateWritePerformsActions :
    start.priv = .supervisor ∧ 64 ≤ ((start.setReg 0 64).reg 0).toNat ∧
    (((start.setReg 0 63).reg 0).toNat < 64 ∧ ((start.setReg 0 63).reg 0).getLsbD 3 = true) ∧
    0x07FF < { start with ptAddr := 0x07E1 }.ptAddr.toNat + 31 ∧
    { start with ptAddr := 0x07E0 }.ptAddr.toNat + 31 ≤ 0x07FF := by decide

theorem witness_ProgrammableSlots :
    (start.cfg.cf.getLsbD 15 = false ∧ start.intEnable = true) ∧
      { start with cfg := { start.cfg with cf := 0x8000 } }.cfg.cf.getLsbD 15 = true := by decide

/-- A privileged instruction, INT 63, and an entry of interrupt 2 that came of it. -/
theorem witness_PrivilegeViolations :
    user.priv = .user ∧ user.intEnable = true ∧ alwaysPrivileged (.hcf 0) = true ∧
      (∃ imm, Instr.int 63 = .int imm ∧ imm.toNat < 64) ∧
      ∃ t, exec (.hcf 0) user = .next t ∧ t.priv = .supervisor ∧ t.pxId = 2 :=
  ⟨rfl, rfl, rfl, ⟨63, rfl, by decide⟩, _, rfl, rfl, rfl⟩

theorem witness_IrtUndoesEntry : start.intEnable = true := by decide

/-- Raised by a step, lowered by IRT, lowered by PX[31], lowered by a step. -/
theorem witness_PrivilegeChanges :
    (∃ t, step { user with pendingTimer := true } = .next t ∧ { user with pendingTimer := true }.priv = .user ∧
      t.priv = .supervisor) ∧
    (∃ t, exec (.irt 0) start = .next t ∧ start.priv = .supervisor ∧ t.priv = .user) ∧
    (∃ t, exec (.pxw 31 0) (start.setReg 0 4) = .next t ∧ (start.setReg 0 4).priv = .supervisor ∧ t.priv = .user) ∧
    (let s : State := { start with mem := writeWord [] 0x0101 0x0900 }
     s.priv = .supervisor ∧ after (step s) (fun t => t.priv) = some .user) :=
  ⟨⟨_, rfl, rfl, rfl⟩, ⟨_, rfl, rfl, rfl⟩, ⟨_, rfl, rfl, rfl⟩, by decide⟩

/-- A user step that stays at user level: a MOV in memory at IP. -/
theorem witness_UserStepIsIsolated :
    user.priv = .user ∧ after (step { user with mem := writeWord [] 0x0101 0xA308 }) (fun t => (t.priv, t.reg 0)) =
      some (.user, 0x34) := by decide

/-- A state other than reset that meets the invariant and steps. -/
theorem witness_StepKeepsInvariant : user.Inv ∧ ∃ t, step user = .next t :=
  ⟨{ memWf := ⟨List.Pairwise.nil, fun _ h => nomatch h⟩, memInside := fun _ h => (nomatch h),
     staleSorted := List.Pairwise.nil, uiClear := fun _ => rfl, savedUiClear := fun _ => rfl,
     haltedEnabled := fun _ => rfl, deadDisabled := fun h => (nomatch h), tableInFrame0 := fun h => (nomatch h),
     tablePaged := fun h => (nomatch h), cfgWf := by decide }, ⟨_, rfl⟩⟩

/-- `start` with a MOV in memory at IP meets the hypotheses of both clauses. -/
theorem witness_StepRunsDecodedInstruction :
    let s : State := { start with mem := writeWord [] 0x0101 0xA308 }
    (s.run = .running ∧ s.poll.takeExternal = none ∧ (s.poll.translate s.poll.ip .execute).1 = .ok 0x0101 ∧
      decode ((s.poll.translate s.poll.ip .execute).2.fetchAt 0x0101).1 = .ok (.movI 0 0x34)) ∧
    (Quiet s ∧ decode (readWord s.mem s.ip.toNat) = .ok (.movI 0 0x34)) :=
  ⟨by decide, ⟨rfl, rfl, .inr ⟨rfl, rfl⟩, rfl, rfl⟩, by decide⟩

theorem witness_PlantedWordRuns :
    start.run = .running ∧ start.arrivals = [] ∧ start.pendingTimer = false ∧ start.pendingIo = [] ∧
      start.paging = false := by decide

/-- Both requests pending, a request alone, and interrupts disabled with a step that goes on. -/
theorem witness_ExternalInterruptsAreTakenInOrder :
    (let s : State := { start with pendingTimer := true, pendingIo := [⟨7, .readFromPort⟩] }
     s.run ≠ .dead ∧ s.arrivals = [] ∧ s.intEnable = true ∧ s.pendingTimer = true) ∧
    (let s : State := { start with pendingIo := [⟨7, .readFromPort⟩] }
     s.run ≠ .dead ∧ s.arrivals = [] ∧ s.intEnable = true ∧ s.pendingTimer = false ∧
       s.pendingIo = ⟨7, .readFromPort⟩ :: []) ∧
    (let s : State := { start with
       intEnable := false, pendingTimer := true, mem := writeWord [] 0x0101 0xAF00 }
     s.run ≠ .dead ∧ s.arrivals = [] ∧ s.intEnable = false ∧
       after (step s) (fun t => t.pendingTimer) = some true) := by decide

/-- INT with interrupts disabled, raised by an instruction and by a step. -/
theorem witness_DoubleFaultIsTheOnlyFault :
    { start with intEnable := false }.intEnable = false ∧
      step { start with intEnable := false, mem := writeWord [] 0x0101 0x0880 } = .fault .doubleFault :=
  ⟨rfl, rfl⟩

/-- One refusal of each kind. -/
theorem witness_RefusalsAreTheSpecs :
    exec (.prog 3 0) { start with cfg := { start.cfg with cf := 0x8000 } } = .refused (.programmableUndefined 3) ∧
    exec (.pxr 0 4) start = .refused (.reservedPx 4) ∧
    exec (.pxw 31 0) (start.setReg 0 64) = .refused (.reservedUpdateBits 64) ∧
    exec (.pxw 31 0) { start.setReg 0 8 with ptAddr := 0x07E1 } = .refused (.tableOutsideFrame0 0x07E1) ∧
    exec (.mrdI 0 0) (paged 0x8020) = .refused (.frameBeyondMemory 32) ∧
    exec (.psh 0 0) { paged 0xF000 with ptKnown := false } = .refused .tableUnspecified :=
  ⟨rfl, rfl, rfl, rfl, rfl, rfl⟩

/-- A write to UI, an IRT that restores a prefix, and a MOV. -/
theorem witness_PrefixValidOnlyAfterUiWrite :
    (∃ t, exec (.xwrI .cfui 1) start = .next t ∧ t.uiValid = true) ∧
    (∃ t, exec (.irt 0) { start with savedUiValid := true } = .next t ∧ t.uiValid = true) ∧
    (∃ t, exec (.movR 0 1) start = .next t ∧ t.uiValid = false) :=
  ⟨⟨_, rfl, rfl⟩, ⟨_, rfl, rfl⟩, ⟨_, rfl, rfl⟩⟩

/-- A paged machine that steps and stays paged. -/
theorem witness_PagingStaysOn :
    { paged 0xF000 with run := .halted }.paging = true ∧ ∃ t, step { paged 0xF000 with run := .halted } = .next t ∧ t.paging = true :=
  ⟨rfl, _, rfl, rfl⟩

end Sys2Proof.Tests
end

section
/-! PROOFS. The statements about the state of the machine (10_state.md): what every step keeps, and what an
instruction does to UI and to the undefined flags. Each statement about all instructions is a case
analysis of `exec_answer`, each about all steps one of `step_answer`. -/

namespace Sys2Proof.Machine

variable {s t u : State} {i : Instr}

/-! ### What the parts of a step keep of the invariant -/

/-- Polling and fetching keep the invariant: they change no memory and keep the record of older
words in order. -/
theorem State.Inv.of_reached (hs : s.Inv) (h : Reached s u) : u.Inv :=
  { (congrArg State.Inv h.frame :).mpr hs with staleSorted := h.sorted hs.staleSorted }

/-- A change of ordinary registers keeps the invariant where it leaves UI 0 or valid. -/
theorem State.Inv.of_plain (hs : s.Inv) (h : Plain s u) (hu : u.uiValid = false → u.ui = 0) : u.Inv :=
  { (congrArg State.Inv h.eq :).mpr hs with uiClear := hu }

/-- Entering an interrupt keeps the invariant: the UI saved is the one that stood, and the processor runs. -/
theorem State.Inv.enter (hs : s.Inv) (r : IntRecord) : (s.enter r).Inv :=
  { hs with
    uiClear := fun _ => rfl
    savedUiClear := hs.uiClear
    haltedEnabled := nofun
    deadDisabled := nofun }

/-- Returning from an interrupt keeps the invariant of a machine that is not dead. -/
theorem State.Inv.leave (hs : s.Inv) (hr : s.run ≠ .dead) : s.leave.Inv :=
  { hs with
    uiClear := hs.savedUiClear
    haltedEnabled := fun _ => rfl
    deadDisabled := fun h => absurd h hr }

/-- Storing a word inside physical memory keeps the invariant. -/
theorem State.Inv.stored (hs : s.Inv) (h : Plain s u) {pa : Nat} (hp : pa < s.cfg.memKiw.toNat * 1024) (v : Word)
    (hu : u.uiValid = false → u.ui = 0) :
    State.Inv { u with mem := writeWord s.mem pa v, stale := noteStore s pa } :=
  { hs.of_plain h hu with
    memWf := wf_writeWord hs.memWf pa v
    memInside := h.cfg ▸ inside_writeWord hs.memInside hp v
    staleSorted := cellsSorted_noteStore hs.staleSorted pa }

/-- A machine that meets the invariant has at least 64 kiW of memory (10_state.md R53). -/
theorem State.Inv.memKiw_ge (hs : s.Inv) : 64 ≤ s.cfg.memKiw.toNat := by
  have h := hs.cfgWf
  simp only [Config.wf, Bool.and_eq_true, decide_eq_true_eq] at h
  exact h.1

/-- The actions of a write to PX[31] keep the invariant of a running machine, where a table that is read lies in
frame 0: a known table afterwards is the one just read, or the one known before. -/
theorem State.Inv.updateActions (hs : s.Inv) (hr : s.run = .running) {v : Word}
    (hf : v.getLsbD 3 = true → s.ptAddr.toNat + 31 ≤ 0x07FF) : (s.updateActions v).Inv := by
  have hframe := s.updateActions_frame v
  obtain ⟨hknown, hbase, hpaging⟩ := s.updateActions_table v
  have hrun : (s.updateActions v).run = .running := (congrArg State.run hframe :).trans hr
  refine { (congrArg State.Inv hframe :).mpr hs with
    haltedEnabled := fun h => absurd (hrun.symm.trans h) nofun
    deadDisabled := fun h => absurd (hrun.symm.trans h) nofun
    tableInFrame0 := fun h => ?_
    tablePaged := fun h => ?_ }
  · rw [hbase]
    cases hb : v.getLsbD 3 with
    | true => exact hf hb
    | false => exact hs.tableInFrame0 (by simp_all)
  · rw [hpaging]
    cases hb : v.getLsbD 3 with
    | true => simp
    | false => simp [hs.tablePaged (by simp_all)]

/-- Clearing UI keeps the invariant. -/
theorem State.Inv.clearUi (hs : s.Inv) : s.clearUi.Inv := { hs with uiClear := fun _ => rfl }

/-- An instruction of a running machine keeps the invariant. -/
theorem State.Inv.exec (hs : s.Inv) (hr : s.run = .running) (h : exec i s = .next t) : t.Inv := by
  have ha := exec_answer i s
  rw [h] at ha
  cases ha with
  | plain _ hp hc => exact hs.of_plain hp fun _ => hc.1
  | uiWritten _ hp hv => exact hs.of_plain hp fun h => absurd (hv.symm.trans h) nofun
  | stored _ u va v pa _ _ hx hp ht hc =>
    subst ht
    exact hs.stored hp (State.translate_ok_lt hs.memKiw_ge hx) v fun _ => hc.1
  | entered u r _ hp hc => exact (hs.of_plain hp fun _ => hc.1).enter r
  | left => exact hs.leave (by simp [hr])
  | halted => exact { hs with
      uiClear := fun _ => rfl
      haltedEnabled := fun _ => rfl
      deadDisabled := nofun }
  | died => exact { hs with
      uiClear := fun _ => rfl
      haltedEnabled := nofun
      deadDisabled := fun _ => rfl }
  | port _ _ hframe hc => exact { (congrArg State.Inv hframe :).mpr hs with uiClear := fun _ => hc.1 }
  | pxWritten _ _ hframe hc => exact { (congrArg State.Inv hframe :).mpr hs with uiClear := fun _ => hc.1 }
  | updated _ _ _ _ hf => exact (hs.updateActions hr hf).clearUi

/-- Settles O50: what polling and fetching reach meets the invariant, and from there an interrupt entry or one
instruction keeps it. -/
theorem stepKeepsInvariant : Obligations.StepKeepsInvariant := by
  intro s t hs h
  have ha := step_answer s
  rw [h] at ha
  cases ha with
  | dead => exact hs
  | external u r _ _ hu => exact (hs.of_reached hu).enter r
  | waiting => exact hs.of_reached (Reached.poll s)
  | fetchEntered u r _ _ hu => exact (hs.of_reached hu).enter r
  | ran i u _ hr hu hexec =>
    obtain ⟨-, -, hrun, -⟩ := hu.system
    exact (hs.of_reached hu).exec (hrun.trans hr) hexec.symm

/-- Settles O51: memory and the record of older words are empty, the processor runs, no table is known. -/
theorem resetMeetsInvariant : Obligations.ResetMeetsInvariant :=
  { memWf := wf_reset
    memInside := nofun
    staleSorted := List.Pairwise.nil
    uiClear := fun _ => rfl
    savedUiClear := fun _ => rfl
    haltedEnabled := nofun
    deadDisabled := nofun
    tableInFrame0 := nofun
    tablePaged := nofun
    cfgWf := by decide }

/-! ### Paging and the constants (R62, R4) -/

/-- Paging, if on, stays on, and the constants stay as they are. -/
def PagingKept (s t : State) : Prop := (s.paging = true → t.paging = true) ∧ t.cfg = s.cfg

theorem PagingKept.of_eq (hp : t.paging = s.paging) (hc : t.cfg = s.cfg) : PagingKept s t :=
  ⟨fun h => hp.trans h, hc⟩

theorem PagingKept.trans (h : PagingKept s t) (h' : PagingKept t u) : PagingKept s u :=
  ⟨fun hp => h'.1 (h.1 hp), h'.2.trans h.2⟩

/-- Polling and fetching keep paging and the constants. -/
theorem PagingKept.of_reached (h : Reached s u) : PagingKept s u :=
  .of_eq (congrArg State.paging h.frame :) (congrArg State.cfg h.frame :)

/-- Entering an interrupt keeps paging and the constants. -/
theorem PagingKept.enter (s : State) (r : IntRecord) : PagingKept s (s.enter r) := .of_eq rfl rfl

/-- The actions of a write to PX[31] turn paging on or leave it. -/
theorem PagingKept.updateActions (s : State) (v : Word) : PagingKept s (s.updateActions v) := by
  obtain ⟨-, -, hpaging⟩ := s.updateActions_table v
  exact ⟨fun h => by rw [hpaging, h, Bool.or_true], (congrArg State.cfg (s.updateActions_frame v) :)⟩

/-- An instruction keeps paging on and the constants as they are. -/
theorem PagingKept.exec (h : exec i s = .next t) : PagingKept s t := by
  have ha := exec_answer i s
  rw [h] at ha
  cases ha with
  | plain _ hp => exact .of_eq hp.paging hp.cfg
  | uiWritten _ hp => exact .of_eq hp.paging hp.cfg
  | stored _ u _ _ _ _ _ _ hp ht => subst ht; exact .of_eq hp.paging hp.cfg
  | entered u r _ hp => exact (PagingKept.of_eq hp.paging hp.cfg).trans (.enter u r)
  | left => exact .of_eq rfl rfl
  | halted => exact .of_eq rfl rfl
  | died => exact .of_eq rfl rfl
  | port _ _ hframe => exact .of_eq (congrArg State.paging hframe :) (congrArg State.cfg hframe :)
  | pxWritten _ _ hframe => exact .of_eq (congrArg State.paging hframe :) (congrArg State.cfg hframe :)
  | updated rs => exact .updateActions s (s.reg rs)

/-- Settles O59: of all that a step can do, a write to PX[31] alone touches paging, and it turns it on. -/
theorem pagingStaysOn : Obligations.PagingStaysOn := by
  intro s t h
  have ha := step_answer s
  rw [h] at ha
  cases ha with
  | dead => exact ⟨id, rfl⟩
  | external u r _ _ hu => exact (PagingKept.of_reached hu).trans (.enter u r)
  | waiting => exact PagingKept.of_reached (Reached.poll s)
  | fetchEntered u r _ _ hu => exact (PagingKept.of_reached hu).trans (.enter u r)
  | ran i u _ _ hu hexec => exact (PagingKept.of_reached hu).trans (.exec hexec.symm)

/-! ### `ui_valid` after an instruction (R35 to R37) -/

/-- UI is valid after an instruction only where it wrote UI, or where it is an IRT that restored a valid one. -/
theorem exec_uiValid_cause (h : exec i s = .next t) (hv : t.uiValid = true) :
    (∃ rs, i = .xwrR .cfui rs) ∨ (∃ imm, i = .xwrI .cfui imm) ∨
      (∃ ign, i = .irt ign ∧ s.priv = .supervisor ∧ s.savedUiValid = true) := by
  have cleared {w : State} (hc : PrefixCleared w) : w.uiValid ≠ true := by simp [hc.2]
  have ha := exec_answer i s
  rw [h] at ha
  cases ha with
  | plain _ _ hc => exact absurd hv (cleared hc)
  | uiWritten _ _ _ hi => exact hi.imp_right .inl
  | stored _ _ _ _ _ _ _ _ _ _ hc => exact absurd hv (cleared hc)
  | entered => cases hv
  | left ign hi hp => exact .inr (.inr ⟨ign, hi, hp, hv⟩)
  | halted => cases hv
  | died => cases hv
  | port _ _ _ hc => exact absurd hv (cleared hc)
  | pxWritten _ _ _ hc => exact absurd hv (cleared hc)
  | updated => cases hv

/-- A write to UI makes UI valid. -/
theorem extWrite_cfui_uiValid {v : Word} (h : extWrite .cfui v s = .next t) : t.uiValid = true := by
  cases h; rfl

/-- IRT at level 1 answers the return. -/
theorem execIrt_supervisor (ign : BitVec 8) (hp : s.priv = .supervisor) : execIrt ign s = .next s.leave :=
  privileged_supervisor hp

/-- Settles O58: no other instruction leaves UI valid, and these do. -/
theorem prefixValidOnlyAfterUiWrite : Obligations.PrefixValidOnlyAfterUiWrite := by
  intro i s t h
  refine ⟨exec_uiValid_cause h, ?_⟩
  rintro (⟨rs, rfl⟩ | ⟨imm, rfl⟩ | ⟨ign, rfl, hp, hv⟩)
  · exact extWrite_cfui_uiValid h
  · exact extWrite_cfui_uiValid h
  · cases (execIrt_supervisor ign hp).symm.trans h
    exact hv

/-! ### The undefined flags (R42, R43) -/

/-- O and C of `t` are two free bits drawn between `s` and `t`. -/
def FreshOC (s t : State) : Prop :=
  ∃ m n, s.draws ≤ m ∧ m < n ∧ n < t.draws ∧ t.fl.o = Config.freeBit m ∧ t.fl.c = Config.freeBit n

/-- A result stored with S and Z of it leaves O and C fresh. -/
theorem resultSz_freshOC {rd : RegNum} {r : Word} (h : resultSz rd r s = .next t) : FreshOC s t := by
  cases h
  exact ⟨s.draws, s.draws + 1, le_rfl, Nat.lt_succ_self _, Nat.lt_succ_self _, rfl, rfl⟩

/-- S and Z of a result that is not stored leave O and C fresh. -/
theorem flagsSz_freshOC {r : Word} (h : flagsSz r s = .next t) : FreshOC s t := by
  cases h
  exact ⟨s.draws, s.draws + 1, le_rfl, Nat.lt_succ_self _, Nat.lt_succ_self _, rfl, rfl⟩

/-- An undefined result leaves O and C fresh: they are the third and the fourth of its five free values. -/
theorem State.undefResult_freshOC (s : State) (rd : RegNum) : FreshOC s (s.undefResult rd) :=
  ⟨s.draws + 2, s.draws + 3, Nat.le_add_right _ _, Nat.lt_succ_self _, Nat.add_lt_add_left (by decide) _,
    rfl, rfl⟩

/-- A division leaves O and C fresh, also where the divisor is zero and interrupt 4 is entered. -/
theorem divide_freshOC {rd : RegNum} {b : Word} (h : divide rd b s = .next t) : FreshOC s t := by
  unfold divide at h
  split at h
  · obtain ⟨-, rfl⟩ := raise_next h
    exact s.undefResult_freshOC rd
  · split at h
    · cases h
      exact s.undefResult_freshOC rd
    · exact resultSz_freshOC h

/-- With its extension present, an instruction that needs one answers what its body answers. -/
theorem needsExt_next {e : Extension} {w : Word} {body : Result} (h : needsExt e w s body = .next t)
    (he : s.hasExt e = true) : body = .next t := by
  rwa [needsExt_present he] at h

/-- Settles O18: each of the nine ends in a result with S and Z of it, or in a division. -/
theorem undefinedFlagsAreFreshDraws : Obligations.UndefinedFlagsAreFreshDraws := by
  intro s rd rs imm i t hi h he
  simp only [List.mem_cons, List.not_mem_nil, or_false] at hi
  rcases hi with rfl | rfl | rfl | rfl | rfl | rfl | rfl | rfl | rfl | rfl | rfl | rfl | rfl | rfl | rfl | rfl |
    rfl | rfl
  -- AND, ORR, XOR, NOT
  iterate 8 exact resultSz_freshOC h
  -- TST
  iterate 2 exact flagsSz_freshOC h
  -- SHL, SHR
  iterate 4 exact resultSz_freshOC h
  -- MUL
  iterate 2 exact resultSz_freshOC (needsExt_next h (he .mul rfl))
  -- DIV
  iterate 2 exact divide_freshOC (needsExt_next h (he .div rfl))

end Sys2Proof.Machine
end

section
/-! PROOFS. The statements about memory (20_memory.md): translation, the entry in force, loads after stores, and
what a fetch sees of stores. The statement about all steps is a case analysis of `step_answer`, and of
`exec_answer` where an instruction ran. -/

namespace Sys2Proof.Machine

variable {s t : State}

/-! ### Translation (R100, R103) -/

/-- Settles O34: translation looks at the address only where paging is on. -/
theorem unpagedAddressesAreUnchanged : Obligations.UnpagedAddressesAreUnchanged :=
  State.translate_unpaged

/-- Bit 15 of an entry is its top bit, so an entry is present from 0x8000 on. -/
theorem ptePresent_iff (e : Word) : ptePresent e = true ↔ 32768 ≤ e.toNat := by
  unfold ptePresent
  rw [← BitVec.msb_eq_getLsbD_last e, BitVec.msb_eq_decide, decide_eq_true_eq]

section
variable {priv : Priv} {memKiw e : Word} {kind : AccessKind}

/-- An entry that is not present gives a page fault, whatever else it holds (R101). -/
theorem checkPte_absent (va : Word) (h : ptePresent e = false) : checkPte priv memKiw e va kind = .pageFault :=
  if_pos h

/-- A present entry that forbids the access at user level gives a violation, whatever its frame (R102). -/
theorem checkPte_forbidden (va : Word) (h : ptePresent e = true) (hp : priv = .user)
    (hk : ptePermits e kind = false) : checkPte priv memKiw e va kind = .violation := by
  simp [checkPte, h, hp, hk]

/-- A present entry that the level allows is judged by its frame: refused beyond memory, else the frame times 2048
plus the offset (R98, R96). -/
theorem checkPte_allowed (va : Word) (h : ptePresent e = true) (hk : priv = .user → ptePermits e kind = true) :
    checkPte priv memKiw e va kind =
      if memKiw.toNat / 2 ≤ e.toNat % 4096 then .refused (.frameBeyondMemory (e.toNat % 4096))
      else .ok (e.toNat % 4096 * 2048 + va.toNat % 2048) := by
  have allowed : ¬ (priv = .user ∧ ptePermits e kind = false) := fun ⟨hp, hf⟩ => by simp [hk hp] at hf
  unfold checkPte
  rw [if_neg (by simp [h]), if_neg allowed, physAddr_toNat, pteFrame_toNat]

end

/-- Settles O35: a paged access with a specified table is the check of the entry in force, and the check has four
ways to end. -/
theorem pagedTranslation : Obligations.PagedTranslation := by
  refine ⟨State.translate_unspecified, fun s va kind hp hk => ?_⟩
  intro e allowed
  have hallowed : allowed = ptePermits e kind := by cases kind <;> rfl
  rw [s.translate_paged va kind hp hk, hallowed]
  refine ⟨pageOf_toNat va, rfl, fun habsent => ?_, fun hpresent hu hf => ?_,
    fun hpresent ha => ⟨fun hbeyond => ?_, fun hinside => ?_⟩⟩
  · exact checkPte_absent va (Bool.eq_false_iff.2 (mt (ptePresent_iff e).1 habsent.not_ge))
  · exact checkPte_forbidden va ((ptePresent_iff e).2 hpresent) hu hf
  · exact (checkPte_allowed va ((ptePresent_iff e).2 hpresent) ha).trans (if_pos hbeyond)
  · exact (checkPte_allowed va ((ptePresent_iff e).2 hpresent) ha).trans (if_neg hinside.not_ge)

/-! ### The entry in force (R107) -/

/-- Settles O36: the three branches are those of `State.effectivePte`. -/
theorem entryInForce : Obligations.EntryInForce := by
  intro s p c m r
  have notAbsent (h : c.getLsbD 15 = true) : ¬ ptePresent c = false := by simp [ptePresent, h]
  refine ⟨fun habsent => ?_, fun hpresent heq => ?_, fun hpresent hne => ?_⟩
  · exact if_pos habsent
  · exact (if_neg (notAbsent hpresent)).trans (if_pos heq)
  · exact (if_neg (notAbsent hpresent)).trans (if_neg hne)

/-! ### Loads after stores (R112) -/

/-- Settles O37: a store writes one word of memory. -/
theorem loadSeesMostRecentStore : Obligations.LoadSeesMostRecentStore := fun s pa v =>
  ⟨readWord_writeWord_self s.mem pa v, fun _ h => readWord_writeWord_of_ne s.mem v h⟩

/-! ### Fetches of stored words (R116) -/

/-- Where no older word is on record, a store brings one on record only at its own address and with F2.P = 0: the
word it replaces. -/
theorem cellGet_noteStore_of_none {pa : Nat} (h : cellGet s.stale pa = none) (pb : Nat) :
    cellGet (noteStore s pb) pa = none ∨
      (pb = pa ∧ s.codeProtected = false ∧ cellGet (noteStore s pb) pa = some [readWord s.mem pa]) := by
  by_cases e : pa = pb
  · subst e
    cases hc : s.codeProtected with
    | true => exact .inl (cellGet_noteStore_protected hc pa)
    | false =>
      refine .inr ⟨rfl, rfl, ?_⟩
      rw [cellGet_noteStore_open hc, State.olderWords, h]
      rfl
  · exact .inl ((cellGet_noteStore_of_ne s e).trans h)

/-- The record of older words is left alone by an instruction that stores nothing; one that stores notes the word
its data access stands for. -/
theorem exec_stale {i : Instr} (h : exec i s = .next t) :
    t.stale = s.stale ∨ ∃ va p pa, dataAccessOf s i = some (va, .write, p) ∧ (s.translate va .write).1 = .ok pa ∧
      t.stale = noteStore s pa := by
  have ha := exec_answer i s
  rw [h] at ha
  cases ha with
  | plain _ hp => exact .inl hp.stale
  | uiWritten _ hp => exact .inl hp.stale
  | stored _ _ va _ pa p hd hx _ ht => exact .inr ⟨va, p, pa, hd, hx, congrArg State.stale ht⟩
  | entered _ _ _ hp => exact .inl hp.stale
  | left => exact .inl rfl
  | halted => exact .inl rfl
  | died => exact .inl rfl
  | port _ _ hframe => exact .inl (congrArg State.stale hframe :)
  | pxWritten _ _ hframe => exact .inl (congrArg State.stale hframe :)
  | updated rs => exact .inl (congrArg State.stale (s.updateActions_frame (s.reg rs)) :)

/-- An older word comes on record only where a store to that very word ran with F2.P = 0. -/
theorem step_brings_older_word {pa : Nat} (h : step s = .next t) (hs : cellGet s.stale pa = none) :
    cellGet t.stale pa = none ∨
      (s.codeProtected = false ∧ cellGet t.stale pa = some [readWord s.mem pa] ∧
        ∃ i u va p, step s = exec i u ∧ u.mem = s.mem ∧
          dataAccessOf u i = some (va, .write, p) ∧ (u.translate va .write).1 = .ok pa) := by
  have ha := step_answer s
  rw [h] at ha
  cases ha with
  | dead => exact .inl hs
  | external u r _ _ hu => exact .inl (hu.fresh pa hs)
  | waiting => exact .inl ((Reached.poll s).fresh pa hs)
  | fetchEntered u r _ _ hu => exact .inl (hu.fresh pa hs)
  | ran i u _ _ hu hexec =>
    obtain ⟨-, -, -, -, -, -, hf2, -, -⟩ := hu.regs
    obtain ⟨-, -, -, hmem, -, -⟩ := hu.system
    have hprot : u.codeProtected = s.codeProtected := congrArg (·.getLsbD 0) hf2
    rcases exec_stale hexec.symm with hkept | ⟨va, p, pb, hd, hx, hnoted⟩
    · exact .inl (hkept ▸ hu.fresh pa hs)
    · rw [hnoted]
      refine (cellGet_noteStore_of_none (hu.fresh pa hs) pb).imp_right ?_
      rintro ⟨rfl, hopen, hword⟩
      exact ⟨hprot ▸ hopen, hmem ▸ hword, i, u, va, p, h.trans hexec, hmem, hd, hx⟩

/-- The older words on record at an address are those that its cell lists. -/
theorem State.mem_olderWords {pa : Nat} {w : Word} :
    w ∈ s.olderWords pa ↔ ∃ before, cellGet s.stale pa = some before ∧ w ∈ before := by
  unfold State.olderWords
  cases cellGet s.stale pa <;> simp

/-- Settles O38: F2.P is the bit that `State.fetchAt` and `noteStore` decide by. -/
theorem fetchOfStoredWords : Obligations.FetchOfStoredWords := by
  refine ⟨fun s pa hp => State.fetchAt_protected hp pa, fun s pa v hp => cellGet_noteStore_protected hp pa,
    fun s pa hn => (s.fetchAt_of_none pa hn).1, fun s t pa h hn => step_brings_older_word h hn,
    fun s pa v hp => ⟨_, cellGet_noteStore_open hp pa, fun w => ?_⟩, fun s pa olds hp ho => State.fetchAt_open hp ho⟩
  rw [mem_addOlder, State.mem_olderWords]

end Sys2Proof.Machine
end

section
/-! PROOFS. The statements about the encoding (30_encoding.md): decoding and encoding undo each other, format by
format; which words are no instruction (R166) and which the opcode map marks invalid (R165); the rotated
immediates (R145). -/

namespace Sys2Proof

variable {w : Word} {i : Instr} {m n : Nat}

/-! ### Opcode bits of a word -/

/-- A field is given back by its value. -/
theorem bitsAt_eq_ofNat {lo len : Nat} (h : (bitsAt w lo len).toNat = n) : bitsAt w lo len = BitVec.ofNat len n := by
  rw [← h, BitVec.ofNat_toNat, BitVec.setWidth_eq]

/-- Two fields side by side are one field. -/
theorem bitsAt_append (w : Word) (lo m n : Nat) : bitsAt w (lo + n) m ++ bitsAt w lo n = bitsAt w lo (m + n) :=
  BitVec.extractLsb'_append_extractLsb'_eq_extractLsb' rfl

/-- A long opcode is the short opcode followed by three bits (R162, R163). -/
theorem bitsAt_byte_toNat (w : Word) : (bitsAt w 8 8).toNat = (bitsAt w 11 5).toNat * 8 + (bitsAt w 8 3).toNat := by
  rw [bitsAt_byte, BitVec.toNat_append, ← Nat.shiftLeft_add_eq_or_of_lt (bitsAt w 8 3).isLt, Nat.shiftLeft_eq]

/-- The four opcode bits of a programmable word are the first four of its five (R168). -/
theorem bitsAt_quarter_toNat (w : Word) : (bitsAt w 12 4).toNat = (bitsAt w 11 5).toNat / 2 := by
  simp only [bitsAt, BitVec.extractLsb'_toNat, Nat.shiftRight_eq_div_pow]
  omega

/-- The two parts of a long opcode, as the decode tree reads them. -/
theorem fields_of_byte {b : BitVec 8} (h : bitsAt w 8 8 = b) :
    bitsAt w 11 5 = b.extractLsb' 3 5 ∧ bitsAt w 8 3 = b.extractLsb' 0 3 :=
  h ▸ ⟨(bitsAt_group w).symm, (bitsAt_long w).symm⟩

/-- A field of one bit is 0 where that bit is. -/
theorem bitsAt_one_eq_zero_iff {k : Nat} : bitsAt w k 1 = 0 ↔ w.getLsbD k = false := by
  have h : bitsAt w k 1 = BitVec.ofBool (w.getLsbD k) := by
    ext i hi
    simp [Nat.lt_one_iff.1 hi]
  rw [h]
  cases w.getLsbD k <;> decide

/-! ### Decoding what was encoded -/

/-- A programmable word carries one of the two short opcodes 00110 and 00111 (R168). -/
theorem prog_op (slot : BitVec 4) (body : BitVec 8) :
    (bitsAt (3#4 ++ slot ++ body) 11 5).toNat = 6 ∨ (bitsAt (3#4 ++ slot ++ body) 11 5).toNat = 7 := by
  have hfirst : bitsAt (3#4 ++ slot ++ body) 12 4 = 3#4 := by
    rw [BitVec.append_assoc]
    exact BitVec.extractLsb'_append_eq_left
  have hhalf := bitsAt_quarter_toNat (3#4 ++ slot ++ body)
  rw [hfirst, BitVec.toNat_ofNat] at hhalf
  omega

/-- Field `slot` of a programmable word, read back. -/
theorem prog_slot (slot : BitVec 4) (body : BitVec 8) : bitsAt (3#4 ++ slot ++ body) 8 4 = slot := by
  rw [bitsAt, BitVec.extractLsb'_append_eq_of_le (by decide)]
  exact BitVec.extractLsb'_append_eq_right

/-- Field `body` of a programmable word, read back. -/
theorem prog_body (slot : BitVec 4) (body : BitVec 8) : bitsAt (3#4 ++ slot ++ body) 0 8 = body :=
  BitVec.extractLsb'_append_eq_right

/-- The opcode of RET, read back. -/
theorem ret_byte (socz : BitVec 4) : bitsAt (0xAC#8 ++ socz ++ 0#4) 8 8 = 0xAC#8 := by
  rw [BitVec.append_assoc]
  exact BitVec.extractLsb'_append_eq_left

/-- The flags of RET, read back. -/
theorem ret_socz (socz : BitVec 4) : bitsAt (0xAC#8 ++ socz ++ 0#4) 4 4 = socz := by
  rw [bitsAt, BitVec.extractLsb'_append_eq_of_le (by decide)]
  exact BitVec.extractLsb'_append_eq_right

/-- The must-be-zero bits of RET, read back. -/
theorem ret_low (socz : BitVec 4) : bitsAt (0xAC#8 ++ socz ++ 0#4) 0 4 = 0 :=
  BitVec.extractLsb'_append_eq_right

/-- Settles O1: format by format (R135-R142), the decode tree reads the opcode that the format's encoder put there,
and then each operand from its own field. -/
theorem decodeOfEncode : Obligations.DecodeOfEncode := by
  intro i
  cases i with
  | invRR00 | invRR01 | invRR02 | invRR03 | invRR04 | invRR05 | invRR06 | invRR07 | invRR15 | invRR16 | invRR17
  | prdR | pwrR | xrd | xwrR | mrdR | mwrR | mroR | mwoR | mulR | cmpR | divR | tstR | movR | addR | subR | notR
  | andR | orrR | xorR | shlR | shrR =>
    simp [encode, decode, decodeRegReg, encRegReg_high, encRegReg_op, encRegReg_s, encRegReg_d,
      ExtReg.ofBits_toBits]
  | prdI | pwrI | xwrI | mrdI | mwrI | mroI | mwoI | mulI | cmpI | divI | tstI | movI | addI | subI | notI | andI
  | orrI | xorI | shlI | shrI =>
    simp [encode, decode, encRegImm_op, encRegImm_reg, encRegImm_imm, ExtReg.ofBits_toBits]
  | calI | jmpI | invS0A => simp [encode, decode, encLong11_op, encLong11_imm]
  | jcu | jcs => simp [encode, decode, encJmpCcc_op, encJmpCcc_leg, encJmpCcc_imm, Leg.ofBits_toBits]
  | mcu | mcs =>
    simp [encode, decode, decodeMovCcc, encMovCcc_op, encMovCcc_leg, encMovCcc_s, encMovCcc_d, encMovCcc_bit4,
      encMovCcc_bit0, Leg.ofBits_toBits]
  | int | irt | hlt | hcf | invL0C | invL0D =>
    simp [encode, decode, decodeLong01, encLongImm_group, encLongImm_op, encLongImm_imm]
  | invLAD | invLAE | nop =>
    simp [encode, decode, decodeLong15, encLongImm_group, encLongImm_op, encLongImm_imm]
  | pxr | pxw =>
    simp [encode, decode, decodeLong01, encLongRegImm_group, encLongRegImm_op, encLongRegImm_reg,
      encLongRegImm_imm]
  | pop | psh | calR | jmpR =>
    simp [encode, decode, decodeLong15, encLongRegImm_group, encLongRegImm_op, encLongRegImm_reg,
      encLongRegImm_imm]
  | ret socz =>
    obtain ⟨hop, hlong⟩ := fields_of_byte (ret_byte socz)
    simp [encode, decode, decodeLong15, hop, hlong, ret_low, ret_socz]
  | prog slot body =>
    rcases prog_op slot body with hop | hop
    · simp [encode, decode, hop, prog_slot, prog_body]
    · simp [encode, decode, hop, prog_slot, prog_body]

/-! ### Encoding what was decoded -/

/-- A REG_REG word is what its operation and its registers encode to. -/
theorem encRegReg_of_op (h : (bitsAt w 11 5).toNat = 0) (hop : (bitsAt w 0 5).toNat = n) :
    encRegReg (BitVec.ofNat 5 n) (bitsAt w 8 3) (bitsAt w 5 3) = w :=
  bitsAt_eq_ofNat hop ▸ encRegReg_fields w (bitsAt_eq_ofNat h)

section
variable (h : (bitsAt w 11 5).toNat = n)
include h

/-- A word with short opcode `n` is what that opcode and its short REG_IMM fields encode to. -/
theorem encRegImm_of_op : encRegImm (BitVec.ofNat 5 n) (bitsAt w 5 3) (imm8RegImm w) = w :=
  bitsAt_eq_ofNat h ▸ encRegImm_fields w

/-- A word with short opcode `n` is what that opcode and its 11-bit immediate encode to. -/
theorem encLong11_of_op : encLong11 (BitVec.ofNat 5 n) (imm11Long w) = w :=
  bitsAt_eq_ofNat h ▸ encLong11_fields w

/-- A word with short opcode `n` is what that opcode and its JMP_CCC fields encode to. -/
theorem encJmpCcc_of_op : encJmpCcc (BitVec.ofNat 5 n) (Leg.ofBits (bitsAt w 1 3)) (imm8JmpCcc w) = w :=
  bitsAt_eq_ofNat h ▸ encJmpCcc_fields w

/-- A word with one of the two programmable opcodes is what its slot and its body encode to. -/
theorem prog_fields (hn : n / 2 = 3) : 3#4 ++ bitsAt w 8 4 ++ bitsAt w 0 8 = w := by
  have hfirst : bitsAt w 12 4 = 3#4 := bitsAt_eq_ofNat (by rw [bitsAt_quarter_toNat, h, hn])
  rw [← hfirst, bitsAt_append w 8 4 4, bitsAt_append w 0 8 8]
  exact BitVec.extractLsb'_eq_self

end

section
variable {b : BitVec 8} (h : (bitsAt w 11 5).toNat = m) (hlong : (bitsAt w 8 3).toNat = n)
  (hb : b.toNat = m * 8 + n)
include h hlong hb

/-- The long opcode of a word from its two parts. -/
theorem bitsAt_byte_of_op : bitsAt w 8 8 = b :=
  BitVec.eq_of_toNat_eq (by rw [bitsAt_byte_toNat, h, hlong, hb])

/-- A word with long opcode `b` is what that opcode and its 8-bit immediate encode to. -/
theorem encLongImm_of_op : encLongImm b (imm8LongImm w) = w :=
  bitsAt_byte_of_op h hlong hb ▸ encLongImm_fields w

/-- A word with long opcode `b` is what that opcode, its register and its 5-bit immediate encode to. -/
theorem encLongRegImm_of_op : encLongRegImm b (bitsAt w 5 3) (imm5LongRegImm w) = w :=
  bitsAt_byte_of_op h hlong hb ▸ encLongRegImm_fields w

/-- A word with long opcode `b` and its must-be-zero bits at 0 is what that opcode and its flags encode to. -/
theorem ret_fields (h0 : bitsAt w 0 4 = 0) : b ++ bitsAt w 4 4 ++ 0#4 = w := by
  rw [← bitsAt_byte_of_op h hlong hb, ← show bitsAt w 0 4 = 0#4 from h0, bitsAt_append w 4 8 4,
    bitsAt_append w 0 12 4]
  exact BitVec.extractLsb'_eq_self

end

/-- The encoder undoes the REG_REG branch of the decode tree (R161). -/
theorem encode_decodeRegReg (h : (bitsAt w 11 5).toNat = 0) : encode (decodeRegReg w) = w := by
  unfold decodeRegReg
  generalize hop : (bitsAt w 0 5).toNat = n
  match n, hop with
  | 10, hop => exact (congrArg (encRegReg _ · _) (ExtReg.toBits_ofBits _)).trans (encRegReg_of_op h hop)
  | 11, hop => exact (congrArg (encRegReg _ _) (ExtReg.toBits_ofBits _)).trans (encRegReg_of_op h hop)
  | 0, hop | 1, hop | 2, hop | 3, hop | 4, hop | 5, hop | 6, hop | 7, hop | 8, hop | 9, hop | 12, hop | 13, hop
  | 14, hop | 15, hop | 16, hop | 17, hop | 18, hop | 19, hop | 20, hop | 21, hop | 22, hop | 23, hop | 24, hop
  | 25, hop | 26, hop | 27, hop | 28, hop | 29, hop | 30, hop | 31, hop => exact encRegReg_of_op h hop
  | n + 32, hop => exact absurd hop (by omega)

/-- The encoder undoes the branch of the long opcodes under 00001 (R162). -/
theorem encode_decodeLong01 (h : (bitsAt w 11 5).toNat = 1) : encode (decodeLong01 w) = w := by
  unfold decodeLong01
  generalize hlong : (bitsAt w 8 3).toNat = n
  match n, hlong with
  | 0, hlong | 1, hlong | 2, hlong | 3, hlong | 4, hlong | 5, hlong => exact encLongImm_of_op h hlong rfl
  | 6, hlong | 7, hlong => exact encLongRegImm_of_op h hlong rfl
  | n + 8, hlong => exact absurd hlong (by omega)

/-- The encoder undoes the branch of the long opcodes under 10101 (R163). -/
theorem encode_decodeLong15 (h : (bitsAt w 11 5).toNat = 21) (hi : decodeLong15 w = .ok i) : encode i = w := by
  unfold decodeLong15 at hi
  generalize hlong : (bitsAt w 8 3).toNat = n at hi
  match n, hlong, hi with
  | 0, hlong, hi | 1, hlong, hi | 2, hlong, hi | 3, hlong, hi => cases hi; exact encLongRegImm_of_op h hlong rfl
  | 4, hlong, hi =>
    by_cases h0 : bitsAt w 0 4 = 0
    · cases (if_pos h0).symm.trans hi
      exact ret_fields h hlong rfl h0
    · exact nomatch (if_neg h0).symm.trans hi
  | 5, hlong, hi | 6, hlong, hi | 7, hlong, hi => cases hi; exact encLongImm_of_op h hlong rfl
  | n + 8, hlong, _ => exact absurd hlong (by omega)

/-- The encoder undoes the branch of MCU and MCS (R139). -/
theorem encode_decodeMovCcc {mk : Leg → RegNum → RegNum → Instr} (h : (bitsAt w 11 5).toNat = n)
    (hmk : ∀ leg rd rs, encode (mk leg rd rs) = encMovCcc (BitVec.ofNat 5 n) leg rs rd)
    (hi : decodeMovCcc mk w = .ok i) : encode i = w := by
  by_cases hzero : bitsAt w 4 1 = 0 ∧ bitsAt w 0 1 = 0
  · cases (if_pos hzero).symm.trans hi
    obtain ⟨h4, h0⟩ := hzero
    rw [hmk, ← bitsAt_eq_ofNat h, encMovCcc_fields w h4 h0]
  · exact nomatch (if_neg hzero).symm.trans hi

/-- Settles O2: in every branch of the decode tree (R132) the word is what its opcode and its fields encode to. -/
theorem encodeOfDecode : Obligations.EncodeOfDecode := by
  intro w i hi
  unfold decode at hi
  generalize hop : (bitsAt w 11 5).toNat = n at hi
  match n, hop, hi with
  | 0, hop, hi => cases hi; exact encode_decodeRegReg hop
  | 1, hop, hi => cases hi; exact encode_decodeLong01 hop
  | 2, hop, hi | 3, hop, hi | 10, hop, hi => cases hi; exact encLong11_of_op hop
  | 4, hop, hi | 5, hop, hi => cases hi; exact encJmpCcc_of_op hop
  | 6, hop, hi | 7, hop, hi => cases hi; exact prog_fields hop rfl
  | 11, hop, hi =>
    cases hi
    exact (congrArg (encRegImm _ · _) (ExtReg.toBits_ofBits _)).trans (encRegImm_of_op hop)
  | 8, hop, hi | 9, hop, hi | 12, hop, hi | 13, hop, hi | 14, hop, hi | 15, hop, hi | 16, hop, hi | 17, hop, hi
  | 18, hop, hi | 19, hop, hi | 20, hop, hi | 24, hop, hi | 25, hop, hi | 26, hop, hi | 27, hop, hi | 28, hop, hi
  | 29, hop, hi | 30, hop, hi | 31, hop, hi => cases hi; exact encRegImm_of_op hop
  | 21, hop, hi => exact encode_decodeLong15 hop hi
  | 22, hop, hi | 23, hop, hi => exact encode_decodeMovCcc hop (fun _ _ _ => rfl) hi
  | n + 32, hop, _ => exact absurd hop (by omega)

/-! ### Words that are no instruction (R166) -/

/-- A decoding guarded by a check is refused exactly where the check fails. -/
theorem guarded_error_iff {c : Prop} [Decidable c] {e₀ : DecodeRefusal} :
    (∃ e, (if c then .ok i else .error e₀ : Except DecodeRefusal Instr) = .error e) ↔ ¬ c := by
  by_cases hc : c
  · rw [if_pos hc]
    exact iff_of_false (fun ⟨_, h⟩ => nomatch h) (not_not_intro hc)
  · rw [if_neg hc]
    exact iff_of_true ⟨e₀, rfl⟩ hc

/-- MCU and MCS are refused where bit 4 or bit 0 is 1. -/
theorem decodeMovCcc_error_iff {mk : Leg → RegNum → RegNum → Instr} :
    (∃ e, decodeMovCcc mk w = .error e) ↔ w.getLsbD 4 = true ∨ w.getLsbD 0 = true := by
  unfold decodeMovCcc
  rw [guarded_error_iff, bitsAt_one_eq_zero_iff, bitsAt_one_eq_zero_iff, not_and_or, Bool.not_eq_false,
    Bool.not_eq_false]

/-- Under 10101, RET alone is refused, where one of its low four bits is 1. -/
theorem decodeLong15_error_iff :
    (∃ e, decodeLong15 w = .error e) ↔ (bitsAt w 8 3).toNat = 4 ∧ bitsAt w 0 4 ≠ 0 := by
  unfold decodeLong15
  by_cases hlong : (bitsAt w 8 3).toNat = 4
  · rw [hlong]
    exact guarded_error_iff.trans (and_iff_right rfl).symm
  · split
    case h_5 h => exact absurd h hlong
    all_goals exact iff_of_false (fun ⟨_, h⟩ => nomatch h) (fun ⟨h, _⟩ => hlong h)

/-- Outside RET's group, MCU and MCS every word is an instruction or an invalid row. -/
theorem decode_ok_of_op (h21 : (bitsAt w 11 5).toNat ≠ 21) (h22 : (bitsAt w 11 5).toNat ≠ 22)
    (h23 : (bitsAt w 11 5).toNat ≠ 23) : ∃ i, decode w = .ok i := by
  unfold decode
  split
  case h_22 hop => exact absurd hop h21
  case h_23 hop => exact absurd hop h22
  case h_24 hop => exact absurd hop h23
  all_goals exact ⟨_, rfl⟩

/-! ### The immediates (R145) -/

/-- A field that ends in `lo`, rotated right by one, begins with `lo`; rotated left by one it is the field again. -/
theorem rotated_by_one {f imm : BitVec (n + 2)} {hi : BitVec (n + 1)} {lo : BitVec 1} (hf : f = hi ++ lo)
    (himm : imm = (lo ++ hi).cast (Nat.add_comm 1 (n + 1))) : imm = f.rotateRight 1 ∧ f = imm.rotateLeft 1 := by
  subst hf himm
  have hone : 1 % (n + 2) = 1 := Nat.mod_eq_of_lt (by omega)
  refine ⟨BitVec.eq_of_getLsbD_eq fun i hlt => ?_, BitVec.eq_of_getLsbD_eq fun i hlt => ?_⟩
  · simp only [BitVec.getLsbD_cast, BitVec.getLsbD_rotateRight, BitVec.getLsbD_append, hone]
    by_cases h : i < n + 1
    · simp [h]
    · simp [show i = n + 1 by omega]
  · simp only [BitVec.getLsbD_cast, BitVec.getLsbD_rotateLeft, BitVec.getLsbD_append, hone]
    by_cases h : i < 1
    · simp [show i = 0 by omega]
    · simp [h, show i < n + 2 by omega, show i - 1 < n + 1 by omega]

/-- The low bits of a word end in its bit 0. -/
theorem bitsAt_append_last (w : Word) (n : Nat) : bitsAt w 0 (n + 1) = bitsAt w 1 n ++ bitsAt w 0 1 :=
  (bitsAt_append w 0 n 1).symm

/-- Settles O6: each field ends in bit 0 of the word, and each immediate is that bit followed by the rest. -/
theorem immediateTopBitComesLast : Obligations.ImmediateTopBitComesLast := by
  refine fun w => ⟨?_, ?_, ?_, ?_, ?_⟩
  · have hsplit : bitsAt w 8 3 ++ bitsAt w 0 5 = (bitsAt w 8 3 ++ bitsAt w 1 4) ++ bitsAt w 0 1 :=
      (congrArg (bitsAt w 8 3 ++ ·) (bitsAt_append_last w 4)).trans BitVec.append_assoc'
    exact rotated_by_one hsplit BitVec.append_assoc
  · exact rotated_by_one (bitsAt_append_last w 10) rfl
  · exact rotated_by_one (hi := bitsAt w 4 7) (lo := bitsAt w 0 1) rfl rfl
  · exact rotated_by_one (bitsAt_append_last w 7) rfl
  · exact rotated_by_one (bitsAt_append_last w 4) rfl

/-- Settles O7: the decoder runs on each of the nine words. -/
theorem sampleWordsDecode : Obligations.SampleWordsDecode := by
  unfold Obligations.SampleWordsDecode
  decide

end Sys2Proof

namespace Sys2Proof.Machine

variable {w : Word} {i : Instr} {s : State}

/-! ### A word, run -/

/-- A word that is an instruction runs as that instruction. -/
theorem runWord_ok (h : decode w = .ok i) : runWord w s = exec i s := by
  unfold runWord
  rw [h]

/-- A word that is no instruction is refused by name. -/
theorem runWord_error {e : DecodeRefusal} (h : decode w = .error e) :
    runWord w s = .refused (.reservedEncoding w) := by
  unfold runWord
  rw [h]

/-! ### Words with a must-be-zero bit at 1 (R166) -/

/-- The must-be-zero words by the opcodes that the decode tree branches on. -/
theorem mustBeZeroWord_iff : mustBeZeroWord w ↔
    (((bitsAt w 11 5).toNat = 22 ∨ (bitsAt w 11 5).toNat = 23) ∧ (w.getLsbD 4 = true ∨ w.getLsbD 0 = true)) ∨
      ((bitsAt w 11 5).toNat = 21 ∧ (bitsAt w 8 3).toNat = 4 ∧ bitsAt w 0 4 ≠ 0) := by
  have hbyte : bitsAt w 8 8 = 0xAC#8 ↔ (bitsAt w 11 5).toNat = 21 ∧ (bitsAt w 8 3).toNat = 4 := by
    rw [BitVec.toNat_eq, bitsAt_byte_toNat, BitVec.toNat_ofNat]
    omega
  unfold mustBeZeroWord
  rw [hbyte, BitVec.toNat_eq, BitVec.toNat_eq, and_assoc]
  rfl

/-- The must-be-zero words are those that decode to no instruction. -/
theorem mustBeZeroWord_iff_decode : mustBeZeroWord w ↔ ∃ e, decode w = .error e := by
  rw [mustBeZeroWord_iff]
  by_cases h21 : (bitsAt w 11 5).toNat = 21
  · simp [decode, h21, decodeLong15_error_iff]
  by_cases h22 : (bitsAt w 11 5).toNat = 22
  · simp [decode, h22, decodeMovCcc_error_iff]
  by_cases h23 : (bitsAt w 11 5).toNat = 23
  · simp [decode, h23, decodeMovCcc_error_iff]
  obtain ⟨i, hi⟩ := decode_ok_of_op h21 h22 h23
  simp only [h21, h22, h23, hi, reduceCtorEq, or_self, false_and, exists_false]

/-- Settles O3: what decodes to no instruction is refused when run. -/
theorem mustBeZeroWordsAreRefused : Obligations.MustBeZeroWordsAreRefused := by
  refine fun w => ⟨mustBeZeroWord_iff_decode, fun h s => ?_⟩
  obtain ⟨e, he⟩ := mustBeZeroWord_iff_decode.1 h
  exact runWord_error he

/-! ### Invalid rows and invalid words (R165, R336) -/

/-- An interrupt raised with interrupts enabled is entered from the state that raised it. -/
theorem raise_entered (r : IntRecord) (h : s.intEnable = true) :
    ∃ t, raise r s = .next t ∧ EnteredFrom s t r :=
  ⟨s.enter r, raise_enabled r h, ⟨rfl, rfl, rfl, rfl, rfl⟩, ⟨rfl, rfl, rfl⟩, ⟨rfl, rfl, rfl, rfl, rfl⟩, rfl, rfl⟩

/-- An instruction that is not supported enters interrupt 6, UI cleared first (R310 step 3). -/
theorem unsupported_entered (w : Word) (h : s.intEnable = true) :
    ∃ t, unsupported w s = .next t ∧ EnteredFrom s.clearUi t ⟨6, s.ip, w, 0, 0⟩ :=
  raise_entered ⟨idUnsupported, s.ip, w, 0, 0⟩ h

/-- A row that holds no instruction is not supported. -/
theorem exec_invalidRow (h : invalidRow i = true) : exec i s = unsupported (encode i) s := by
  cases i with
  | invRR00 | invRR01 | invRR02 | invRR03 | invRR04 | invRR05 | invRR06 | invRR07 | invRR15 | invRR16 | invRR17
  | invL0C | invL0D | invLAD | invLAE | invS0A => rfl
  | _ => exact nomatch h

/-- Settles O5: each of these rows is the same interrupt, with its own word. -/
theorem invalidRowsEnterInterrupt6 : Obligations.InvalidRowsEnterInterrupt6 := by
  intro i s hi hs
  rw [exec_invalidRow hi]
  exact unsupported_entered (encode i) hs

/-- The REG_REG operations that the opcode map marks invalid decode to rows that hold no instruction (R161). -/
theorem invalidRow_decodeRegReg
    (h : (bitsAt w 0 5).toNat ≤ 7 ∨ 21 ≤ (bitsAt w 0 5).toNat ∧ (bitsAt w 0 5).toNat ≤ 23) :
    invalidRow (decodeRegReg w) = true := by
  unfold decodeRegReg
  generalize (bitsAt w 0 5).toNat = n at h
  rcases h with hlow | ⟨hfrom, hto⟩
  · interval_cases n <;> rfl
  · interval_cases n <;> rfl

/-- The long opcodes that the opcode map marks invalid decode to rows that hold no instruction (R162, R163). -/
theorem invalidRow_of_byte (h : bitsAt w 8 8 ∈ [0x0C#8, 0x0D#8, 0xAD#8, 0xAE#8]) :
    ∃ i, decode w = .ok i ∧ invalidRow i = true := by
  simp only [List.mem_cons, List.not_mem_nil, or_false] at h
  rcases h with hb | hb | hb | hb
  · obtain ⟨hop, hlong⟩ := fields_of_byte hb
    exact ⟨.invL0C (imm8LongImm w), by simp [decode, decodeLong01, hop, hlong], rfl⟩
  · obtain ⟨hop, hlong⟩ := fields_of_byte hb
    exact ⟨.invL0D (imm8LongImm w), by simp [decode, decodeLong01, hop, hlong], rfl⟩
  · obtain ⟨hop, hlong⟩ := fields_of_byte hb
    exact ⟨.invLAD (imm8LongImm w), by simp [decode, decodeLong15, hop, hlong], rfl⟩
  · obtain ⟨hop, hlong⟩ := fields_of_byte hb
    exact ⟨.invLAE (imm8LongImm w), by simp [decode, decodeLong15, hop, hlong], rfl⟩

/-- Every word that the opcode map marks invalid decodes to a row that holds no instruction. -/
theorem invalidWord_decodes (h : invalidWord w) : ∃ i, decode w = .ok i ∧ invalidRow i = true := by
  rcases h with ⟨hop, hreg⟩ | hbyte | hop
  · exact ⟨decodeRegReg w, by simp [decode, hop], invalidRow_decodeRegReg hreg⟩
  · exact invalidRow_of_byte hbyte
  · exact ⟨.invS0A (imm11Long w), by simp [decode, hop], rfl⟩

/-- Settles O4: the word decodes to a row that holds no instruction, and that row's word is the word itself. -/
theorem invalidWordsRaiseInterrupt6 : Obligations.InvalidWordsRaiseInterrupt6 := by
  intro w s hw hs
  obtain ⟨i, hdecode, hrow⟩ := invalidWord_decodes hw
  rw [runWord_ok hdecode, exec_invalidRow hrow, encodeOfDecode w i hdecode]
  exact unsupported_entered w hs

end Sys2Proof.Machine
end

section
/-! PROOFS. The statements about the system instructions (40_system.md): INT, IRT, HLT, HCF, PXR, PXW with the
actions of a write to PX[31], the programmable slots, and the causes for which an instruction is refused. Each
instruction has an equation at the level that runs it; the statement about all refusals is a case analysis of
`exec_answer`. -/

namespace Sys2Proof.Machine

variable {s : State}

/-! ### Privilege violations (R332) -/

/-- A privileged instruction at level 0 enters interrupt 2, UI cleared first (R310 step 4). -/
theorem privileged_user_entered (w : Word) (body : Result) (hp : s.priv = .user) (hs : s.intEnable = true) :
    ∃ t, privileged w s body = .next t ∧ EnteredFrom s.clearUi t ⟨2, s.ip, w, 1, 0⟩ := by
  rw [privileged_user hp]
  exact raise_entered ⟨idPrivilege, s.ip, w, 1, 0⟩ hs

/-! ### INT (R180) -/

/-- INT with a software id is an interrupt at either level (R337). -/
theorem exec_int_software {imm : BitVec 8} (h : 64 ≤ imm.toNat) (s : State) :
    exec (.int imm) s = raise (intSwRecord imm s) s.clearUi :=
  if_neg h.not_gt

/-- INT with a hardware id is privileged, and draws the words that the spec leaves undefined (R338). -/
theorem exec_int_hardware {imm : BitVec 8} (h : imm.toNat < 64) (s : State) :
    exec (.int imm) s = privileged (encode (.int imm)) s (raise (intHwRecord imm s) (s.drawn 3).clearUi) :=
  if_pos h

/-- With interrupts disabled INT stops the machine, whichever interrupt it would enter (R322). -/
theorem exec_int_disabled (imm : BitVec 8) (h : s.intEnable = false) :
    exec (.int imm) s = .fault .doubleFault := by
  rcases lt_or_ge imm.toNat 64 with hid | hid
  · rw [exec_int_hardware hid]
    rcases s.priv.user_or_supervisor with hp | hp
    · rw [privileged_user hp]
      exact raise_disabled _ h
    · rw [privileged_supervisor hp]
      exact raise_disabled _ h
  · rw [exec_int_software hid]
    exact raise_disabled _ h

/-- Settles O39: each clause is the interrupt that INT raises there. -/
theorem intEntersInterrupt : Obligations.IntEntersInterrupt := by
  refine ⟨Laws.MatchesRow.int, fun s imm => ⟨fun hid hs => ?_, fun hid hp hs => ?_, fun hid hp hs => ?_,
    exec_int_disabled imm⟩⟩
  · rw [exec_int_software hid]
    exact raise_entered (intSwRecord imm s) hs
  · obtain ⟨t, ht, hentered⟩ := raise_entered (s := (s.drawn 3).clearUi) (intHwRecord imm s) hs
    rw [exec_int_hardware hid, privileged_supervisor hp]
    exact ⟨t, _, _, _, _, ht, hentered, ⟨rfl, rfl⟩, rfl⟩
  · rw [exec_int_hardware hid]
    exact privileged_user_entered _ _ hp hs

/-! ### IRT (R181) -/

/-- Settles O40: at level 1 IRT answers the return, at level 0 it is a privilege violation. -/
theorem irtRestores : Obligations.IrtRestores :=
  ⟨Laws.MatchesRow.irt, fun _ ign =>
    ⟨fun hp => execIrt_supervisor ign hp, fun hp hs => privileged_user_entered _ _ hp hs⟩⟩

/-! ### HLT and HCF (R182, R183) -/

/-- A dead machine steps to itself. -/
theorem step_dead (h : s.run = .dead) : step s = .next s := if_pos h

/-- A halted machine with nothing pending and nothing to come steps to itself. -/
theorem step_halted_idle (h : s.run = .halted) (ha : s.arrivals = []) (ht : s.pendingTimer = false)
    (hq : s.pendingIo = []) : step s = .next s := by
  unfold step
  rw [State.poll_of_nil ha, State.takeExternal_idle ht hq, h]
  rfl

/-- A machine that steps to itself stays as it is for every number of steps. -/
theorem run_of_step_self {M : Host.Core} {s : M.State} (h : M.step s = .next s) (n : Nat) :
    M.run n s = .next s := by
  induction n with
  | zero => rfl
  | succ n ih => rw [Host.Core.run, h]; exact ih

/-- Settles O41: the two answers at level 1, and the states that step to themselves. -/
theorem hltAndHcfHalt : Obligations.HltAndHcfHalt :=
  ⟨Laws.MatchesRow.hlt, Laws.MatchesRow.hcf,
    fun _ _ hp => ⟨privileged_supervisor hp, privileged_supervisor hp⟩,
    fun _ hd => run_of_step_self (step_dead hd),
    fun _ hh ha ht hq => run_of_step_self (step_halted_idle hh ha ht hq)⟩

/-! ### PXR (R184) -/

section
variable {rd : RegNum} {n : BitVec 5}

/-- PXR at level 1 is the read of the register its number names. -/
theorem exec_pxr_supervisor (hp : s.priv = .supervisor) : exec (.pxr rd n) s = pxRead rd n s :=
  privileged_supervisor hp

/-- A reserved number is refused. -/
theorem pxRead_reserved (h : pxReg n = .reserved) : pxRead rd n s = .refused (.reservedPx n) := by
  unfold pxRead
  rw [h]

/-- Where the read is of a value `v`, PXR leaves `v` in R[d] and changes nothing else but UI. -/
theorem exec_pxr_reads {v : Word} (hp : s.priv = .supervisor) (h : pxRead rd n s = finish (s.setReg rd v)) :
    ∃ t, exec (.pxr rd n) s = .next t ∧ t.reg rd = v ∧ OnlyReg rd s t ∧ PrefixCleared t := by
  refine ⟨(s.setReg rd v).clearUi, (exec_pxr_supervisor hp).trans h, ?_, ⟨fun r hr => ?_, rfl⟩, rfl, rfl⟩
  · rw [State.reg_clearUi, State.reg_setReg_self]
  · rw [State.reg_clearUi, State.reg_setReg_of_ne s rd r v hr]

/-- Where the read is of a free value, PXR changes R[d] and nothing else but UI and the count of free values. -/
theorem exec_pxr_free (hp : s.priv = .supervisor)
    (h : pxRead rd n s = finish ((s.setReg rd (Config.freeWord s.draws)).drawn 1)) :
    ∃ t, exec (.pxr rd n) s = .next t ∧ OnlyRegAndFlags rd s t ∧ t.fl = s.fl ∧ PrefixCleared t := by
  refine ⟨_, (exec_pxr_supervisor hp).trans h, ⟨fun r hr => ?_, rfl⟩, rfl, rfl, rfl⟩
  rw [State.reg_clearUi, State.reg_drawn, State.reg_setReg_of_ne s rd r _ hr]

/-- Settles O42: number by number, what `pxRead` reads. -/
theorem pxrReadsRegister : Obligations.PxrReadsRegister := by
  refine ⟨Laws.MatchesRow.pxr, fun s rd n hp => ?_⟩
  intro reads
  refine ⟨?pid, ?ptAddr, ?memKiw, ?feature, ?intId, ?intIp, ?info0, ?info1, ?info2, ?free, ?reserved⟩
  case pid => rintro rfl hk; exact exec_pxr_reads hp (if_pos hk)
  case free =>
    rintro (rfl | ⟨rfl, hk⟩)
    · exact exec_pxr_free hp rfl
    · exact exec_pxr_free hp (if_neg (by simp [hk]))
  case reserved =>
    intro hn
    exact (exec_pxr_supervisor hp).trans (pxRead_reserved ((pxReg_reserved n).2 hn))
  all_goals rintro rfl; exact exec_pxr_reads hp rfl

end

/-! ### PXW (R185) -/

section
variable {n : BitVec 5} {rs : RegNum} {v : Word}

/-- PXW at level 1 is the write to the register its number names. -/
theorem exec_pxw_supervisor (hp : s.priv = .supervisor) : exec (.pxw n rs) s = pxWrite n (s.reg rs) s :=
  privileged_supervisor hp

/-- A reserved number is refused. -/
theorem pxWrite_reserved (h : pxReg n = .reserved) : pxWrite n v s = .refused (.reservedPx n) := by
  unfold pxWrite
  rw [h]

/-- Settles O43: number by number, what `pxWrite` stores. -/
theorem pxwWritesRegister : Obligations.PxwWritesRegister := by
  refine ⟨Laws.MatchesRow.pxw, fun s n rs hp => ?_⟩
  intro u
  rw [exec_pxw_supervisor hp]
  refine ⟨?pid, ?ptAddr, ?constant, ?intId, ?intIp, ?info0, ?info1, ?info2, ?reserved⟩
  case constant =>
    rintro (rfl | rfl)
    · rfl
    · rfl
  case reserved => exact fun hn => pxWrite_reserved ((pxReg_reserved n).2 hn)
  all_goals rintro rfl; rfl

/-! ### A write to PX[31] (R186) -/

/-- Bits 15:6 of a word are 0 where it is below 64. -/
theorem updateBits_eq_zero_iff : v.extractLsb' 6 10 = 0#10 ↔ v.toNat < 64 := by
  have hv := v.isLt
  rw [BitVec.toNat_eq, BitVec.extractLsb'_toNat, Nat.shiftRight_eq_div_pow,
    BitVec.toNat_ofNat]
  omega

/-- PXW to PX[31] at level 1 is the state update. -/
theorem exec_pxw_update (hp : s.priv = .supervisor) : exec (.pxw 31 rs) s = updateState (s.reg rs) s :=
  exec_pxw_supervisor hp

/-- A write with one of bits 15:6 set is refused. -/
theorem updateState_reservedBits (h : 64 ≤ v.toNat) : updateState v s = .refused (.reservedUpdateBits v) :=
  if_pos (mt updateBits_eq_zero_iff.1 h.not_gt)

/-- A flush of a table that is not wholly in frame 0 is refused. -/
theorem updateState_tableOutside (hv : v.toNat < 64) (h3 : v.getLsbD 3 = true)
    (ht : 0x07FF < s.ptAddr.toNat + 31) : updateState v s = .refused (.tableOutsideFrame0 s.ptAddr) :=
  (if_neg (not_not_intro (updateBits_eq_zero_iff.2 hv))).trans (if_pos ⟨h3, ht⟩)

end

/-- What an action that is done if a bit is 1 leaves of a field. -/
theorem State.apply_actIf {α : Type} (g : State → α) (s : State) (b : Bool) (f : State → State) :
    g (s.actIf b f) = if b = true then g (f s) else g s :=
  apply_ite g (b = true) (f s) s

/-- The interrupt handler table after the actions: read from memory by bit 1 (60_exceptions.md R304). -/
theorem State.updateActions_iht (s : State) (v : Word) : (s.updateActions v).iht =
    if v.getLsbD 1 = true then Vector.ofFn (fun n : Fin 256 => readWord s.mem (0x0100 + n.val)) else s.iht := by
  simp [State.updateActions, State.apply_actIf State.iht]

/-- The PID after the actions: read from memory by bit 0 (20_memory.md R109). -/
theorem State.updateActions_pid (s : State) (v : Word) :
    (s.updateActions v).pid = (if v.getLsbD 0 = true then readWord s.mem 0x00FF else s.pid) ∧
      (s.updateActions v).pidKnown = (v.getLsbD 0 || s.pidKnown) := by
  simp [State.updateActions, State.apply_actIf State.pid, State.apply_actIf State.pidKnown,
    State.apply_actIf State.mem]

/-- The cached table after the actions: read from memory at PX[1] by bit 3 (20_memory.md R105, R108). -/
theorem State.updateActions_ptCache (s : State) (v : Word) : (s.updateActions v).ptCache =
    if v.getLsbD 3 = true then Vector.ofFn (fun p : Fin 32 => readWord s.mem (s.ptAddr.toNat + p.val))
    else s.ptCache := by
  simp [State.updateActions, State.apply_actIf State.ptCache, State.apply_actIf State.mem,
    State.apply_actIf State.ptAddr]

/-- The interrupt enable after the actions: off by bit 5, which takes priority, on by bit 4
(60_exceptions.md R306). -/
theorem State.updateActions_intEnable (s : State) (v : Word) :
    (s.updateActions v).intEnable = (!v.getLsbD 5 && (v.getLsbD 4 || s.intEnable)) := by
  simp [State.updateActions, State.apply_actIf State.intEnable]

/-- Settles O44: the two refusals of the state update, and else its actions, field by field. -/
theorem updateWritePerformsActions : Obligations.UpdateWritePerformsActions := by
  intro s rs hp v
  rw [exec_pxw_update hp]
  refine ⟨updateState_reservedBits, updateState_tableOutside, fun hv hf => ?_⟩
  obtain ⟨hpid, hpidKnown⟩ := s.updateActions_pid v
  obtain ⟨hptKnown, hptBase, hpaging⟩ := s.updateActions_table v
  refine ⟨(s.updateActions v).clearUi, updateState_ok (updateBits_eq_zero_iff.2 hv) hf, fun n => ?_, hpid,
    hpidKnown, hpaging, hptBase, fun p => ?_, hptKnown, s.updateActions_intEnable v,
    hp ▸ s.updateActions_priv v, ⟨rfl, rfl⟩,
    (congrArg (fun x : State => { x with ui := s.ui, uiValid := s.uiValid }) (s.updateActions_frame v) :)⟩
  · rw [State.clearUi_iht, State.updateActions_iht]
    split <;> simp
  · rw [State.clearUi_ptCache, State.updateActions_ptCache]
    split <;> simp

/-! ### Programmable slots (R187) -/

/-- Settles O45: a slot needs the extension P, and has no meaning with it. -/
theorem programmableSlots : Obligations.ProgrammableSlots := by
  refine ⟨Laws.MatchesRow.prog, fun s slot body => ⟨fun hP hs => ?_, needsExt_present (e := .prog)⟩⟩
  obtain ⟨t, ht, hentered⟩ := unsupported_entered (encode (.prog slot body)) hs
  exact ⟨t, (needsExt_absent (e := .prog) hP).trans ht, hentered⟩

/-! ### Refusals -/

/-- The check of an entry refuses a present entry alone, whose frame lies beyond memory, and names that frame
(R98). -/
theorem checkPte_refused {priv : Priv} {memKiw e va : Word} {kind : AccessKind} {r : Refusal}
    (h : checkPte priv memKiw e va kind = .refused r) :
    32768 ≤ e.toNat ∧ memKiw.toNat / 2 ≤ e.toNat % 4096 ∧ r = .frameBeyondMemory (e.toNat % 4096) := by
  cases hpresent : ptePresent e with
  | false =>
    rw [checkPte_absent va hpresent] at h
    cases h
  | true =>
    by_cases hallowed : priv = .user → ptePermits e kind = true
    · rw [checkPte_allowed va hpresent hallowed] at h
      by_cases hbeyond : memKiw.toNat / 2 ≤ e.toNat % 4096
      · rw [if_pos hbeyond] at h
        cases h
        exact ⟨(ptePresent_iff e).1 hpresent, hbeyond, rfl⟩
      · rw [if_neg hbeyond] at h
        cases h
    · obtain ⟨hu, hf⟩ := Classical.not_imp.1 hallowed
      rw [checkPte_forbidden va hpresent hu (Bool.eq_false_iff.2 hf)] at h
      cases h

/-- A translation is refused on a paged machine alone: its table is unspecified, or the entry in force is refused. -/
theorem State.translate_refused_cause {va : Word} {kind : AccessKind} {r : Refusal}
    (h : (s.translate va kind).1 = .refused r) :
    s.paging = true ∧
      ((s.ptKnown = false ∧ r = .tableUnspecified) ∨
        (s.ptKnown = true ∧
          checkPte s.priv s.cfg.memKiw (s.effectivePte (pageOf va)).1 va kind = .refused r)) := by
  have hp := State.translate_refused h
  refine ⟨hp, ?_⟩
  cases hk : s.ptKnown with
  | false =>
    rw [s.translate_unspecified va kind hp hk] at h
    cases h
    exact .inl ⟨rfl, rfl⟩
  | true =>
    rw [s.translate_paged va kind hp hk] at h
    exact .inr ⟨rfl, h⟩

/-- Settles O57: of all that an instruction can answer, five answers are refusals. -/
theorem refusalsAreTheSpecs : Obligations.RefusalsAreTheSpecs := by
  intro i s r h
  have ha := exec_answer i s
  rw [h] at ha
  cases ha with
  | noProgram slot body hi hP => exact .inl ⟨slot, body, hi, hP, rfl⟩
  | reservedPx n hi hp hn => exact .inr (.inl ⟨n, hi, hp, (pxReg_reserved n).1 hn, rfl⟩)
  | reservedUpdate rs hi hp hv =>
    exact .inr (.inr (.inl ⟨rs, hi, hp, .inl ⟨not_lt.1 (mt updateBits_eq_zero_iff.2 hv), rfl⟩⟩))
  | tableOutside rs hi hp h3 ht => exact .inr (.inr (.inl ⟨rs, hi, hp, .inr ⟨h3, ht, rfl⟩⟩))
  | untranslated va kind p _ hd hx =>
    obtain ⟨hpaging, hcause⟩ := State.translate_refused_cause hx
    refine .inr (.inr (.inr ⟨va, kind, p, hd, hpaging, hcause.imp_right ?_⟩))
    exact fun ⟨hk, hc⟩ => ⟨hk, checkPte_refused hc⟩

end Sys2Proof.Machine
end

section
/-! PROOFS. The statements about control transfer and its conditions (41_control.md, and CMP of 44_arith_move.md):
the condition table, what its codes mean after a comparison, calls, jumps, RET and NOP. The facts about a
difference and its flags (45_alu_logic_shift.md R280) come first. -/

namespace Sys2Proof.Machine

variable {s : State} {a b r : Word} {f : Flags}

/-! ### A difference and its flags (R280) -/

/-- The borrow that CMP and SUB take in is the one that the statements name. -/
theorem State.carryIn_toNat (s : State) : s.carryIn.toNat = carryOf s := by
  simp [State.carryIn, State.bigInt, carryOf, Bool.toNat, Bool.cond_eq_ite, and_assoc]

/-- The top bit of a result is S, and its being zero is Z, whatever O and C are (R41). -/
theorem signZeroOf_msb (r : Word) (o c : Bool) : SignZeroOf r ⟨r.msb, o, c, r == 0⟩ := by
  refine ⟨?_, ?_⟩
  · rw [BitVec.msb_eq_decide, decide_eq_true_eq]
  · rw [beq_iff_eq, BitVec.toNat_eq]
    rfl

/-- The difference wraps at 16 bits. -/
theorem subB_toNat (a b : Word) (bin : Bool) :
    ((subB a b bin).1.toNat : Int) = (a.toNat - b.toNat - bin.toNat) % 65536 := by
  unfold subB
  rw [BitVec.toNat_ofInt]
  omega

/-- SubB sets the four flags of its difference. -/
theorem subB_diffFlags (a b : Word) (bin : Bool) :
    DiffFlags a b bin.toNat (subB a b bin).1 (subB a b bin).2 := by
  refine ⟨signZeroOf_msb _ _ _, ?_, ?_⟩
  · simp only [subB, decide_eq_true_eq]
    omega
  · simp only [subB, decide_eq_true_eq]
    omega

/-! ### What the flags of a difference say of its operands -/

section
variable (hr : (r.toNat : Int) = (a.toNat - b.toNat) % 65536) (hf : DiffFlags a b 0 r f)
include hf

/-- C is "less" of the unsigned readings. -/
theorem DiffFlags.c_iff_lt : f.c = true ↔ a.toNat < b.toNat := by
  obtain ⟨-, hc, -⟩ := hf
  exact hc

include hr

/-- Z is "equal". -/
theorem DiffFlags.z_iff_eq : f.z = true ↔ a = b := by
  obtain ⟨⟨-, hz⟩, -, -⟩ := hf
  rw [hz, BitVec.toNat_eq]
  omega

/-- S /= O is "less" of the signed readings: S is the sign of the difference where that fits 16 bits, and the
opposite sign where O says that it does not. -/
theorem DiffFlags.s_ne_o_iff_lt : (f.s != f.o) = true ↔ a.toInt < b.toInt := by
  obtain ⟨⟨hs, -⟩, -, ho⟩ := hf
  have hxor : (f.s != f.o) = true ↔ ¬ (f.s = true ↔ f.o = true) := by simp
  rw [hxor, hs, ho, BitVec.toInt_eq_toNat_cond, BitVec.toInt_eq_toNat_cond]
  omega

end

/-! ### The condition table (R204) -/

/-- Codes 010 and 101 turn on Z as LEG_E_SENSE says. -/
theorem condE_iff (sense : LegSense) (f : Flags) : condE sense f.z = true ↔ HoldsE sense f := by
  cases sense with
  | literal => simp [condE, HoldsE]
  | structural => exact Iff.rfl

/-- CondU is the printed table. -/
theorem condU_iff (sense : LegSense) (f : Flags) (leg : Leg) : condU sense f leg = true ↔ HoldsU sense f leg := by
  cases leg <;> simp [condU, condTable, HoldsU, ← condE_iff]

/-- CondS is the printed table. -/
theorem condS_iff (sense : LegSense) (f : Flags) (leg : Leg) : condS sense f leg = true ↔ HoldsS sense f leg := by
  cases leg <;> simp [condS, condTable, HoldsS, ← condE_iff]

/-! ### The codes as comparisons (R204, D13) -/

/-- The comparison of two words that each code stands for, under a reading `v` of words as numbers. -/
def Compares {α : Type} [LinearOrder α] (v : Word → α) (a b : Word) : Leg → Prop
  | .l000 => False
  | .l001 => v b < v a
  | .l010 => a ≠ b
  | .l011 => v b ≤ v a
  | .l100 => v a < v b
  | .l101 => a = b
  | .l110 => v a ≤ v b
  | .l111 => True

/-- Where "less" and "zero" are the order and the equality of two words, each code read literally is its
comparison. -/
theorem condTable_literal_iff {α : Type} [LinearOrder α] {v : Word → α} (hv : Function.Injective v)
    {less z : Bool} (hless : less = true ↔ v a < v b) (hz : z = true ↔ a = b) (leg : Leg) :
    condTable .literal less z leg = true ↔ Compares v a b leg := by
  rw [← hv.eq_iff] at hz
  cases leg with
  | l000 => simp [condTable, Compares]
  | l001 =>
    rw [Compares, ← not_le, le_iff_lt_or_eq, ← hless, ← hz]
    simp [condTable]
  | l010 => simp [condTable, condE, Compares, ← Bool.not_eq_true, hz, hv.eq_iff]
  | l011 => simp [condTable, Compares, ← Bool.not_eq_true, hless]
  | l100 => exact hless
  | l101 => simp [condTable, condE, Compares, hz, hv.eq_iff]
  | l110 => simp [condTable, Compares, hless, hz, le_iff_lt_or_eq]
  | l111 => simp [condTable, Compares]

/-- CMP without a borrow leaves the flags of the difference of its two registers. -/
theorem exec_cmpR_of_no_borrow (ra rb : RegNum) (h : carryOf s = 0) :
    ∃ t r, exec (.cmpR ra rb) s = .next t ∧ (r.toNat : Int) = ((s.reg ra).toNat - (s.reg rb).toNat) % 65536 ∧
      DiffFlags (s.reg ra) (s.reg rb) 0 r t.fl := by
  have hbin : s.carryIn.toNat = 0 := s.carryIn_toNat.trans h
  have hr := subB_toNat (s.reg ra) (s.reg rb) s.carryIn
  have hf := subB_diffFlags (s.reg ra) (s.reg rb) s.carryIn
  rw [hbin] at hr hf
  exact ⟨_, _, rfl, by simpa using hr, hf⟩

/-- Settles O11: C is the unsigned "less" and S /= O the signed one. -/
theorem conditionCodesMeanComparisons : Obligations.ConditionCodesMeanComparisons := by
  refine ⟨fun sense f leg => ⟨condU_iff sense f leg, condS_iff sense f leg⟩, fun s ra rb h => ?_⟩
  obtain ⟨t, r, ht, hr, hf⟩ := exec_cmpR_of_no_borrow ra rb h
  have hz := hf.z_iff_eq hr
  exact ⟨t, ht, fun leg =>
    ⟨condTable_literal_iff (fun _ _ => BitVec.eq_of_toNat_eq) hf.c_iff_lt hz leg,
      condTable_literal_iff (fun _ _ => BitVec.eq_of_toInt_eq) (hf.s_ne_o_iff_lt hr) hz leg⟩⟩

/-! ### Calls and jumps (R200, R201, R205, R206) -/

/-- A relative jump moves IP and clears UI. -/
theorem relJump_eq (off : Word) (s : State) :
    relJump off s = .next { s with ip := s.ip + off, ui := 0, uiValid := false } := rfl

/-- A relative call moves IP too, and leaves the next address in LR. -/
theorem relCall_eq (off : Word) (s : State) :
    relCall off s = .next { s with lr := s.ip, ip := s.ip + off, ui := 0, uiValid := false } := rfl

/-- Settles O21: the four forms are a relative call or a relative jump by their own offset. -/
theorem callsAndJumpsAreRelative : Obligations.CallsAndJumpsAreRelative := by
  refine ⟨Laws.MatchesRow.calI, Laws.MatchesRow.jmpI, Laws.MatchesRow.calR, Laws.MatchesRow.jmpR,
    fun rs ign => ⟨encLongRegImm_reg 0xAA#8 rs ign, encLongRegImm_reg 0xAB#8 rs ign⟩, fun s imm rs ign => ?_⟩
  exact ⟨relCall_eq (s.offset11 imm) s, relJump_eq (s.offset11 imm) s, relCall_eq (s.reg rs) s,
    relJump_eq (s.reg rs) s⟩

/-! ### Conditional jumps (R202, R203) -/

/-- JCU and JCS are a jump under a condition, which is the printed one. -/
theorem exec_condJump {leg : Leg} {imm : BitVec 8} {i : Instr} {holds : Prop}
    (h : (i = .jcu leg imm ∧ holds = HoldsU s.cfg.legSense s.fl leg) ∨
      (i = .jcs leg imm ∧ holds = HoldsS s.cfg.legSense s.fl leg)) :
    ∃ cond : Bool, exec i s = condJump cond (s.offset8 imm) s ∧ (cond = true ↔ holds) := by
  rcases h with ⟨rfl, rfl⟩ | ⟨rfl, rfl⟩
  · exact ⟨condU s.cfg.legSense s.fl leg, rfl, condU_iff _ _ _⟩
  · exact ⟨condS s.cfg.legSense s.fl leg, rfl, condS_iff _ _ _⟩

/-- Settles O22: a conditional jump is a relative jump where its condition holds, and else only the end of an
instruction. -/
theorem conditionalJumps : Obligations.ConditionalJumps := by
  refine ⟨Laws.MatchesRow.jcu, Laws.MatchesRow.jcs,
    fun leg imm => ⟨encJmpCcc_leg 4#5 leg imm, encJmpCcc_leg 5#5 leg imm⟩, fun s leg imm i holds h => ?_⟩
  obtain ⟨cond, hexec, hcond⟩ := exec_condJump h
  intro off
  rw [hexec]
  refine ⟨fun htaken => ?_, fun hnot => ?_⟩
  · exact (if_pos (hcond.2 htaken)).trans (relJump_eq off s)
  · exact if_neg (mt hcond.1 hnot)

/-! ### RET and NOP (R207, R208) -/

/-- Four bits set as flags are read back in their places. -/
theorem Flags.toWord_ofBits (b : BitVec 4) : (Flags.ofBits b).toWord = b.setWidth 16 := by
  revert b
  decide

/-- Settles O23: RET sets FL to its field and IP to LR. -/
theorem retReturnsWithFlags : Obligations.RetReturnsWithFlags :=
  ⟨fun socz => ⟨Laws.MatchesRow.ret socz, ret_socz socz⟩, fun s socz =>
    ⟨((s.setFl (Flags.ofBits socz)).setIp s.lr).clearUi, rfl, rfl, Flags.toWord_ofBits socz, rfl, rfl, rfl⟩⟩

/-- Settles O24: NOP is the end of an instruction and nothing before it. -/
theorem nopOnlyClearsPrefix : Obligations.NopOnlyClearsPrefix :=
  ⟨Laws.MatchesRow.nop, fun _ _ => rfl⟩

end Sys2Proof.Machine
end

section
/-! PROOFS. The statements about ports and external registers (42_port_extreg.md): PRD and PWR at level 1, XRD, XWR.
Both forms of an instruction are one operation on the operand; each proof goes from `exec` to that operation and
then reads the fields of the state it answers. -/

namespace Sys2Proof.Machine

variable {s : State}

/-! ### XWR (R225, R227) -/

/-- XWR, both forms, is the external write of its operand. -/
theorem exec_xwr {x : ExtReg} {i : Instr} {v : Word}
    (h : (∃ rs, i = .xwrR x rs ∧ v = s.reg rs) ∨ (∃ imm, i = .xwrI x imm ∧ v = s.ui ++ imm)) :
    exec i s = extWrite x v s := by
  rcases h with ⟨rs, rfl, rfl⟩ | ⟨imm, rfl, rfl⟩
  · rfl
  · rfl

/-- A write to UI is no end of an instruction that clears the prefix (R36). -/
theorem extWrite_cfui (v : Word) (s : State) :
    extWrite .cfui v s = .next { s with ui := v.setWidth 8, uiValid := true } := by
  rw [BitVec.setWidth_eq_extractLsb' (by decide)]
  rfl

/-- A write to any other external register clears the prefix. -/
theorem extWrite_of_ne_cfui {x : ExtReg} (hx : x ≠ .cfui) (v : Word) (s : State) :
    extWrite x v s = .next (s.writeExt x v).clearUi := by
  cases x with
  | cfui => exact absurd rfl hx
  | ip | lr | sp | ofs | fl | f1 | f2 => rfl

/-- FL as written reads back as bits 3:0 of the word, zeros above (D5). -/
theorem Flags.toWord_ofWord (v : Word) : (Flags.ofWord v).toWord = v &&& 0x000F#16 := by
  rw [Flags.ofWord, Flags.toWord_ofBits, BitVec.toNat_eq, BitVec.toNat_setWidth, BitVec.extractLsb'_toNat,
    BitVec.toNat_and, BitVec.toNat_ofNat, Nat.shiftRight_zero]
  have hlow : v.toNat &&& 15 % 2 ^ 16 = v.toNat % 2 ^ 4 := Nat.and_two_pow_sub_one_eq_mod v.toNat 4
  omega

/-- A write that leaves the reserved bits of a feature register as they stand is kept whole (D34). -/
theorem writeFeature_reserved_kept {m old v : Word} (n : Nat) (h : v &&& ~~~m = old &&& ~~~m) :
    writeFeature m old v n = v :=
  if_pos h

/-- Settles O27: register by register, what `State.writeExt` stores. -/
theorem xwrWritesExternalRegister : Obligations.XwrWritesExternalRegister := by
  refine ⟨Laws.MatchesRow.xwrR, Laws.MatchesRow.xwrI, fun s x i v h => ?_⟩
  rw [exec_xwr h]
  cases x with
  | cfui => exact ⟨_, extWrite_cfui v s, rfl⟩
  | ip | lr | sp | ofs => exact ⟨_, extWrite_of_ne_cfui (by decide) v s, rfl⟩
  | fl => exact ⟨_, extWrite_of_ne_cfui (by decide) v s, Flags.toWord_ofWord v, rfl, rfl, rfl, rfl⟩
  | f1 =>
    exact ⟨_, extWrite_of_ne_cfui (by decide) v s, writeFeature_defined f1Mask _ v _,
      writeFeature_reserved_kept (m := f1Mask) s.draws, rfl, rfl, rfl⟩
  | f2 =>
    exact ⟨_, extWrite_of_ne_cfui (by decide) v s, writeFeature_defined f2Mask _ v _,
      writeFeature_reserved_kept (m := f2Mask) s.draws, rfl, rfl, rfl⟩

/-! ### PRD and PWR (R220, R221) -/

/-- PRD at level 1, both forms, loads from the port its operand names. -/
theorem exec_prd_supervisor {rd rs : RegNum} {imm : BitVec 8} {i : Instr} {port : Word} (hp : s.priv = .supervisor)
    (h : (i = .prdR rd rs ∧ port = s.reg rs) ∨ (i = .prdI rd imm ∧ port = s.ui ++ imm)) :
    exec i s = portLoad rd port s := by
  rcases h with ⟨rfl, rfl⟩ | ⟨rfl, rfl⟩
  · exact privileged_supervisor hp
  · exact privileged_supervisor hp

/-- A port read writes no register. -/
@[simp] theorem State.reg_portRead (s : State) (port : Word) (r : RegNum) :
    (s.portRead port).2.reg r = s.reg r := by
  obtain ⟨-, -, hframe⟩ := s.portRead_spec port
  exact (congrArg (State.reg · r) hframe :)

/-- A port load leaves the word read in R[d] and in the trace, and of the rest changes only the devices' answers, the
count of free values and UI. -/
theorem portLoad_spec (rd : RegNum) (port : Word) (s : State) : ∃ t, portLoad rd port s = .next t ∧
    (∀ v rest, s.portInputs = v :: rest → t.reg rd = v ∧ t.portInputs = rest) ∧
    t.portTrace = s.portTrace ++ [.read port (t.reg rd)] ∧
    (∀ r, r ≠ rd → t.reg r = s.reg r) ∧
    { t with regs := s.regs, portInputs := s.portInputs, portTrace := s.portTrace, draws := s.draws,
             ui := s.ui, uiValid := s.uiValid } = s ∧ PrefixCleared t := by
  obtain ⟨hinput, htrace, hframe⟩ := s.portRead_spec port
  refine ⟨((s.portRead port).2.setReg rd (s.portRead port).1).clearUi, rfl, ?_, ?_, fun r hr => ?_,
    (congrArg (fun u : State => { u with regs := s.regs, ui := s.ui, uiValid := s.uiValid }) hframe :), rfl, rfl⟩
  · simpa using hinput
  · simpa using htrace
  · rw [State.reg_clearUi, State.reg_setReg_of_ne _ rd r _ hr, State.reg_portRead]

/-- Settles O25: at level 1 PRD is a port load, and PWR appends its write to the trace. -/
theorem portAccesses : Obligations.PortAccesses := by
  intro s rd rs imm hp
  refine ⟨fun i port h => ?_, privileged_supervisor hp, privileged_supervisor hp⟩
  rw [exec_prd_supervisor hp h]
  exact portLoad_spec rd port s

/-! ### XRD (R224, R226) -/

/-- FL as read has the weight of each flag, and nothing above them (R224, D5). -/
theorem Flags.toWord_toNat (f : Flags) :
    f.toWord.toNat = 8 * f.s.toNat + 4 * f.o.toNat + 2 * f.c.toNat + f.z.toNat := by
  obtain ⟨s, o, c, z⟩ := f
  revert s o c z
  decide

/-- An instruction that ends after one register write leaves the value there and changes nothing else but UI. -/
theorem finish_setReg (s : State) (rd : RegNum) (v : Word) :
    ∃ t, finish (s.setReg rd v) = .next t ∧ t.reg rd = v ∧ OnlyReg rd s t ∧ PrefixCleared t := by
  refine ⟨(s.setReg rd v).clearUi, rfl, ?_, ⟨fun r hr => ?_, rfl⟩, rfl, rfl⟩
  · rw [State.reg_clearUi, State.reg_setReg_self]
  · rw [State.reg_clearUi, State.reg_setReg_of_ne s rd r v hr]

/-- Settles O26: XRD writes R[d] with what `State.readExt` gives for the number. -/
theorem xrdReadsExternalRegister : Obligations.XrdReadsExternalRegister := by
  refine ⟨fun rd x => ⟨Laws.MatchesRow.xrd rd x, encRegReg_d _ _ rd, encRegReg_s _ x.toBits _⟩, fun s rd x => ?_⟩
  obtain ⟨t, ht, hval, honly, hcleared⟩ := finish_setReg s rd (s.readExt x)
  refine ⟨t, ht, ?_, honly, hcleared⟩
  cases x with
  | fl => exact (congrArg BitVec.toNat hval).trans s.fl.toWord_toNat
  | ip | cfui | lr | sp | ofs | f1 | f2 => exact hval

end Sys2Proof.Machine
end
section
/-! PROOFS. The statements about memory and stack (43_memory_stack.md): the loads MRD, MRO and POP, the stores MWR,
MWO and PSH, where the address translates. The forms of an instruction are one operation on their address; a load and
a store on the state that the translation leaves are each said once, and POP and PSH move SP besides. -/

namespace Sys2Proof.Machine

variable {s : State} {va : Word} {pa : Nat}

/-! ### A load and a store after the translation of their address -/

/-- A translation writes no register. -/
@[simp] theorem State.reg_translate (s : State) (va : Word) (kind : AccessKind) (r : RegNum) :
    (s.translate va kind).2.reg r = s.reg r :=
  (congrArg (State.reg · r) (s.translate_frame va kind) :)

/-- Writing R[d] after a translation changes R[d] and nothing else but what the translation leaves. -/
theorem State.setReg_translate_spec (s : State) (va : Word) (kind : AccessKind) (rd : RegNum) (v : Word) :
    ((s.translate va kind).2.setReg rd v).reg rd = v ∧
      (∀ r, r ≠ rd → ((s.translate va kind).2.setReg rd v).reg r = s.reg r) ∧
      TranslationLeft va kind s ((s.translate va kind).2.setReg rd v) ∧
      { (s.translate va kind).2.setReg rd v with regs := s.regs, ptCache := s.ptCache, draws := s.draws } = s := by
  refine ⟨State.reg_setReg_self _ rd v, fun r hr => ?_, ⟨rfl, rfl⟩,
    (congrArg (fun u : State => { u with regs := s.regs }) (s.translate_frame va kind) :)⟩
  rw [State.reg_setReg_of_ne _ rd r v hr, State.reg_translate]

/-- Storing after a translation writes one word, notes the word it replaces, and changes nothing else but what the
translation leaves. -/
theorem State.store_translate_spec (s : State) (va : Word) (kind : AccessKind) (pa : Nat) (v : Word) :
    readWord ((s.translate va kind).2.store pa v).mem pa = v ∧
      (∀ a, a ≠ 2 * pa → a ≠ 2 * pa + 1 →
        readByte ((s.translate va kind).2.store pa v).mem a = readByte s.mem a) ∧
      (∀ p, p ≠ pa → cellGet ((s.translate va kind).2.store pa v).stale p = cellGet s.stale p) ∧
      TranslationLeft va kind s ((s.translate va kind).2.store pa v) ∧
      { (s.translate va kind).2.store pa v with
        mem := s.mem, stale := s.stale, ptCache := s.ptCache, draws := s.draws } = s := by
  rw [State.store_translate]
  exact ⟨readWord_writeWord_self s.mem pa v, fun _ h0 h1 => readByte_writeWord_of_ne s.mem v h0 h1,
    fun _ hp => cellGet_noteStore_of_ne s hp, ⟨rfl, rfl⟩,
    (congrArg (fun u : State => { u with mem := s.mem, stale := s.stale }) (s.translate_frame va kind) :)⟩

/-! ### MRD and MRO (R240, R242) -/

/-- MRD and MRO, both forms, are the load from their address. -/
theorem exec_load {rd rs : RegNum} {imm : BitVec 8} {i : Instr}
    (h : (i = .mrdR rd rs ∧ va = s.reg rs) ∨ (i = .mrdI rd imm ∧ va = s.ui ++ imm) ∨
      (i = .mroR rd rs ∧ va = s.ofs + s.reg rs) ∨ (i = .mroI rd imm ∧ va = s.ofs + (s.ui ++ imm))) :
    ∃ prefixed, exec i s = memLoad rd prefixed va s := by
  rcases h with ⟨rfl, rfl⟩ | ⟨rfl, rfl⟩ | ⟨rfl, rfl⟩ | ⟨rfl, rfl⟩
  · exact ⟨false, rfl⟩
  · exact ⟨s.uiValid, rfl⟩
  · exact ⟨false, rfl⟩
  · exact ⟨s.uiValid, rfl⟩

/-- A load whose address translates writes R[d] with the word that stood in memory before it. -/
theorem memLoad_ok {rd : RegNum} {prefixed : Bool} (h : (s.translate va .read).1 = .ok pa) :
    memLoad rd prefixed va s = finish ((s.translate va .read).2.setReg rd (readWord s.mem pa)) := by
  rw [memLoad, dataAccess_ok h, (Plain.translate s va .read).mem]

/-- Settles O28: each form is a load, and a load is a register write after the translation. -/
theorem loadsReadTheWord : Obligations.LoadsReadTheWord := by
  intro s rd rs imm i va pa hi hpa
  obtain ⟨prefixed, hexec⟩ := exec_load hi
  obtain ⟨hval, hothers, hleft, hframe⟩ := s.setReg_translate_spec va .read rd (readWord s.mem pa)
  exact ⟨_, hexec.trans (memLoad_ok hpa), hval, hothers, hleft,
    (congrArg (fun u : State => { u with ui := s.ui, uiValid := s.uiValid }) hframe :), rfl, rfl⟩

/-! ### MWR and MWO (R241, R243) -/

/-- MWR and MWO, both forms, are the store of R[s] at their address. -/
theorem exec_store {rd rs : RegNum} {imm : BitVec 8} {i : Instr}
    (h : (i = .mwrR rd rs ∧ va = s.reg rd) ∨ (i = .mwrI imm rs ∧ va = s.ui ++ imm) ∨
      (i = .mwoR rd rs ∧ va = s.ofs + s.reg rd) ∨ (i = .mwoI imm rs ∧ va = s.ofs + (s.ui ++ imm))) :
    ∃ prefixed, exec i s = memStore prefixed va (s.reg rs) s := by
  rcases h with ⟨rfl, rfl⟩ | ⟨rfl, rfl⟩ | ⟨rfl, rfl⟩ | ⟨rfl, rfl⟩
  · exact ⟨false, rfl⟩
  · exact ⟨s.uiValid, rfl⟩
  · exact ⟨false, rfl⟩
  · exact ⟨s.uiValid, rfl⟩

/-- A store whose address translates is done on the state that the translation leaves. -/
theorem memStore_ok {prefixed : Bool} {v : Word} (h : (s.translate va .write).1 = .ok pa) :
    memStore prefixed va v s = finish ((s.translate va .write).2.store pa v) :=
  dataAccess_ok h

/-- Settles O29: each form is a store of R[s] after the translation. -/
theorem storesWriteTheWord : Obligations.StoresWriteTheWord := by
  intro s rd rs imm i va pa hi hpa
  obtain ⟨prefixed, hexec⟩ := exec_store hi
  obtain ⟨hword, hbytes, hstale, hleft, hframe⟩ := s.store_translate_spec va .write pa (s.reg rs)
  exact ⟨_, hexec.trans (memStore_ok hpa), hword, hbytes, hstale, hleft,
    (congrArg (fun u : State => { u with ui := s.ui, uiValid := s.uiValid }) hframe :), rfl, rfl⟩

/-! ### POP and PSH (R248, R249) -/

/-- POP where SP translates: the word that stood in memory before it, and SP + 1. -/
theorem exec_pop_ok (rd : RegNum) (ign : BitVec 5) (h : (s.translate s.sp .read).1 = .ok pa) :
    exec (.pop rd ign) s =
      finish (((s.translate s.sp .read).2.setReg rd (readWord s.mem pa)).setSp (s.sp + 1)) := by
  rw [← (Plain.translate s s.sp .read).mem]
  exact dataAccess_ok h

/-- PSH where SP - 1 translates: the store of R[s] there, and SP - 1. -/
theorem exec_psh_ok (rs : RegNum) (ign : BitVec 5) (h : (s.translate (s.sp - 1) .write).1 = .ok pa) :
    exec (.psh rs ign) s =
      finish (((s.translate (s.sp - 1) .write).2.store pa (s.reg rs)).setSp (s.sp - 1)) :=
  dataAccess_ok h

/-- Settles O30: POP is a register write after the translation of SP, and a write to SP. -/
theorem popReadsThenRaisesSp : Obligations.PopReadsThenRaisesSp := by
  refine ⟨Laws.MatchesRow.pop, fun s rd ign pa hpa => ?_⟩
  obtain ⟨hval, hothers, hleft, hframe⟩ := s.setReg_translate_spec s.sp .read rd (readWord s.mem pa)
  exact ⟨_, exec_pop_ok rd ign hpa, hval, BitVec.toNat_add s.sp 1, hothers, hleft,
    (congrArg (fun u : State => { u with sp := s.sp, ui := s.ui, uiValid := s.uiValid }) hframe :), rfl, rfl⟩

/-- Settles O31: PSH is a store after the translation of SP - 1, and a write to SP. -/
theorem pshLowersSpThenWrites : Obligations.PshLowersSpThenWrites := by
  refine ⟨Laws.MatchesRow.psh, fun s rs ign pa hpa => ?_⟩
  obtain ⟨hword, hbytes, hstale, hleft, hframe⟩ := s.store_translate_spec (s.sp - 1) .write pa (s.reg rs)
  have hsp : (s.sp - 1).toNat = (s.sp.toNat + 65535) % 65536 := by bv_omega
  exact ⟨_, exec_psh_ok rs ign hpa, hword, hsp, hbytes, hstale, hleft,
    (congrArg (fun u : State => { u with sp := s.sp, ui := s.ui, uiValid := s.uiValid }) hframe :), rfl, rfl⟩

end Sys2Proof.Machine
end

section
/-! PROOFS. The statements about arithmetic and moves (44_arith_move.md): MOV, MCU, MCS, CMP, TST, MUL and DIV. What an
instruction of a missing extension does stands first, what a result with its flags leaves unchanged before MUL. -/

namespace Sys2Proof.Machine

variable {s : State} {rd : RegNum} {a b : Word} {i : Instr}

/-! ### Instructions of an extension (R336) -/

/-- Without its extension an instruction enters interrupt 6 with its own word. -/
theorem needsExt_absent_entered {e : Extension} {w : Word} {body : Result} (he : s.hasExt e = false)
    (hs : s.intEnable = true) :
    ∃ t, needsExt e w s body = .next t ∧ EnteredFrom s.clearUi t ⟨6, s.ip, w, 0, 0⟩ := by
  rw [needsExt_absent he]
  exact unsupported_entered w hs

/-! ### MOV (R268) -/

/-- Settles O19: MOV is one register write, of R[s] or of the extended immediate. -/
theorem movCopiesOperand : Obligations.MovCopiesOperand :=
  ⟨Laws.MatchesRow.movR, Laws.MatchesRow.movI, fun s rd rs imm =>
    ⟨finish_setReg s rd (s.reg rs), finish_setReg s rd (s.imm16 imm)⟩⟩

/-! ### MCU and MCS (R275, R276) -/

/-- MCU and MCS are a move under a condition, which is the printed one, where CF.C allows it. -/
theorem exec_condMove {leg : Leg} {rs : RegNum} {holds : Prop}
    (h : (i = .mcu leg rd rs ∧ holds = HoldsU s.cfg.legSense s.fl leg) ∨
      (i = .mcs leg rd rs ∧ holds = HoldsS s.cfg.legSense s.fl leg)) :
    ∃ cond : Bool, exec i s = needsExt .condMove (encode i) s (condMove cond rd (s.reg rs) s) ∧
      (cond = true ↔ holds) := by
  rcases h with ⟨rfl, rfl⟩ | ⟨rfl, rfl⟩
  · exact ⟨condU s.cfg.legSense s.fl leg, rfl, condU_iff _ _ _⟩
  · exact ⟨condS s.cfg.legSense s.fl leg, rfl, condS_iff _ _ _⟩

/-- A conditional move writes R[d] where its condition holds, and else is only the end of an instruction. -/
theorem condMove_spec (cond : Bool) (rd : RegNum) (b : Word) (s : State) :
    ∃ t, condMove cond rd b s = .next t ∧ OnlyReg rd s t ∧ PrefixCleared t ∧
      (cond = true → t.reg rd = b) ∧ (¬ cond = true → t.reg rd = s.reg rd) := by
  cases cond with
  | true =>
    obtain ⟨t, ht, hval, honly, hcleared⟩ := finish_setReg s rd b
    exact ⟨t, ht, honly, hcleared, fun _ => hval, fun hnot => absurd rfl hnot⟩
  | false => exact ⟨s.clearUi, rfl, ⟨fun _ _ => rfl, rfl⟩, ⟨rfl, rfl⟩, nofun, fun _ => rfl⟩

/-- Settles O20: with CF.C a conditional move under the printed condition, without it interrupt 6. -/
theorem conditionalMoves : Obligations.ConditionalMoves := by
  refine ⟨Laws.MatchesRow.mcu, Laws.MatchesRow.mcs, fun leg rd rs w hw => ?_, fun s leg rd rs i holds h => ?_⟩
  · rcases hw with rfl | rfl <;>
      exact ⟨encMovCcc_s _ leg rs rd, encMovCcc_d _ leg rs rd, encMovCcc_leg _ leg rs rd⟩
  · obtain ⟨cond, hexec, hcond⟩ := exec_condMove h
    rw [hexec, ← hcond]
    refine ⟨fun (he : s.hasExt .condMove = true) => ?_,
      fun (he : s.hasExt .condMove = false) => needsExt_absent_entered he⟩
    rw [needsExt_present he]
    exact condMove_spec cond rd (s.reg rs) s

/-! ### CMP (R262) -/

/-- Both forms of CMP compare R[d] with the second operand. -/
theorem exec_cmp (h : (∃ rs, i = .cmpR rd rs ∧ b = s.reg rs) ∨ (∃ imm, i = .cmpI rd imm ∧ b = s.ui ++ imm)) :
    exec i s = compare rd b s := by
  rcases h with ⟨rs, rfl, rfl⟩ | ⟨imm, rfl, rfl⟩ <;> rfl

/-- Settles O10: CMP writes FL alone, with the flags that SubB gives the difference. -/
theorem cmpSetsFlagsOfDifference : Obligations.CmpSetsFlagsOfDifference := by
  refine ⟨Laws.MatchesRow.cmpR, Laws.MatchesRow.cmpI, fun s rd i b h => ?_⟩
  rw [exec_cmp h, ← s.carryIn_toNat]
  exact ⟨_, _, rfl, subB_toNat _ b _, subB_diffFlags _ b _, rfl, rfl, rfl, rfl⟩

/-! ### TST (R266) -/

/-- Both forms of TST set S and Z of the conjunction of R[d] and the second operand. -/
theorem exec_tst (h : (∃ rs, i = .tstR rd rs ∧ b = s.reg rs) ∨ (∃ imm, i = .tstI rd imm ∧ b = s.ui ++ imm)) :
    exec i s = flagsSz (s.reg rd &&& b) s := by
  rcases h with ⟨rs, rfl, rfl⟩ | ⟨imm, rfl, rfl⟩ <;> rfl

/-- Settles O13: TST writes FL alone, with S and Z of the conjunction. -/
theorem tstSetsSignAndZero : Obligations.TstSetsSignAndZero := by
  refine ⟨Laws.MatchesRow.tstR, Laws.MatchesRow.tstI, fun s rd i b h => ?_⟩
  rw [exec_tst h]
  exact ⟨_, rfl, signZeroOf_msb _ _ _, rfl, rfl, rfl⟩

/-! ### A result and its flags (R41, R43) -/

/-- Writing R[d] and FL and drawing free values leaves everything else but UI as it was. -/
theorem onlyRegAndFlags_written (s : State) (rd : RegNum) (r : Word) (f : Flags) (n : Nat) :
    OnlyRegAndFlags rd s (((s.setReg rd r).setFl f).drawn n).clearUi :=
  ⟨fun m hm => State.reg_setReg_of_ne s rd m r hm, rfl⟩

/-- A result stored with S and Z of it is what R[d] then holds, so what is true of the result is true of R[d]. -/
theorem resultSz_spec {r : Word} {P : Word → Prop} (hr : P r) : ResultSz (resultSz rd r s) s rd P := by
  have hreg : (((s.setReg rd r).setFl (szFlags r s.draws)).drawn 2).clearUi.reg rd = r := s.reg_setReg_self rd r
  refine ⟨_, rfl, ?_, ?_, onlyRegAndFlags_written s rd r _ 2, rfl, rfl⟩
  · rwa [hreg]
  · rw [hreg]
    exact signZeroOf_msb r _ _

/-! ### MUL (R260, D8) -/

/-- Both forms of MUL store the product of R[d] and the second operand, where CF.M allows it. -/
theorem exec_mul (h : (∃ rs, i = .mulR rd rs ∧ b = s.reg rs) ∨ (∃ imm, i = .mulI rd imm ∧ b = s.ui ++ imm)) :
    exec i s = needsExt .mul (encode i) s (resultSz rd (s.reg rd * b) s) := by
  rcases h with ⟨rs, rfl, rfl⟩ | ⟨imm, rfl, rfl⟩ <;> rfl

/-- The low half of a product is the same under the signed reading of its factors. -/
theorem mul_toNat_signed (a b : Word) : ((a * b).toNat : Int) = a.toInt * b.toInt % 65536 := by
  have hprod : a * b = BitVec.ofInt 16 (a.toInt * b.toInt) := by
    rw [BitVec.ofInt_mul, BitVec.ofInt_toInt, BitVec.ofInt_toInt]
  rw [hprod, BitVec.toNat_ofInt]
  exact Int.toNat_of_nonneg (Int.emod_nonneg _ (by decide))

/-- Settles O16: with CF.M the product modulo 2^16 under both readings, without it interrupt 6. -/
theorem mulGivesLowHalf : Obligations.MulGivesLowHalf := by
  refine ⟨Laws.MatchesRow.mulR, Laws.MatchesRow.mulI, fun s rd i b h => ?_⟩
  rw [exec_mul h]
  refine ⟨fun (he : s.hasExt .mul = true) => ?_, fun (he : s.hasExt .mul = false) => needsExt_absent_entered he⟩
  rw [needsExt_present he]
  exact resultSz_spec ⟨BitVec.toNat_mul _ b, mul_toNat_signed _ b⟩

/-! ### DIV (R264, R334, D9, D10) -/

/-- Both forms of DIV divide R[d] by the second operand, where CF.D allows it. -/
theorem exec_div (h : (∃ rs, i = .divR rd rs ∧ b = s.reg rs) ∨ (∃ imm, i = .divI rd imm ∧ b = s.ui ++ imm)) :
    exec i s = needsExt .div (encode i) s (divide rd b s) := by
  rcases h with ⟨rs, rfl, rfl⟩ | ⟨imm, rfl, rfl⟩ <;> rfl

/-- The operands of signed mode whose quotient, 32768, no 16-bit word stands for. -/
def QuotientOverflows (a b : Word) : Prop := a.toInt = -32768 ∧ b.toInt = -1

/-- These operands are the two words that DIV tests for. -/
theorem quotientOverflows_iff : QuotientOverflows a b ↔ a = 0x8000#16 ∧ b = 0xFFFF#16 :=
  and_congr (BitVec.toInt_inj (y := 0x8000#16)) (BitVec.toInt_inj (y := 0xFFFF#16))

/-- The unsigned quotient is the floor of the quotient of the unsigned readings. -/
theorem quotient_unsigned_toNat (a b : Word) : (quotient false a b).toNat = a.toNat / b.toNat := by
  have hlt : a.toNat / b.toNat < 2 ^ 16 := (Nat.div_le_self _ _).trans_lt a.isLt
  exact (BitVec.toNat_ofNat _ _).trans (Nat.mod_eq_of_lt hlt)

/-- The signed quotient is the quotient of the signed readings toward zero, but where that does not fit. -/
theorem quotient_signed_toInt (h : ¬ QuotientOverflows a b) : (quotient true a b).toInt = a.toInt.tdiv b.toInt := by
  have hsdiv : (quotient true a b).toInt = (a.sdiv b).toInt :=
    (BitVec.toInt_ofInt _).trans (BitVec.toInt_sdiv a b).symm
  rw [quotientOverflows_iff, not_and_or] at h
  rw [hsdiv]
  exact BitVec.toInt_sdiv_of_ne_or_ne a b h

/-- A zero divisor: R[d] and FL are undefined, and interrupt 4 follows. -/
theorem divide_zero (rd : RegNum) (s : State) :
    divide rd 0 s = raise ⟨4, s.ip, 0, 0, 0⟩ (s.undefResult rd).clearUi := if_pos rfl

/-- The quotient that does not fit: R[d] and FL are undefined, and the machine goes on. -/
theorem divide_overflow (hs : s.signed = true) (h : QuotientOverflows (s.reg rd) b) :
    divide rd b s = finish (s.undefResult rd) := by
  obtain ⟨ha, rfl⟩ := quotientOverflows_iff.1 h
  exact (if_neg (by decide)).trans (if_pos ⟨hs, ha, rfl⟩)

/-- Every other division stores its quotient with S and Z of it. -/
theorem divide_defined (hb : b ≠ 0) (h : s.signed = true → ¬ QuotientOverflows (s.reg rd) b) :
    divide rd b s = resultSz rd (quotient s.signed (s.reg rd) b) s :=
  (if_neg hb).trans (if_neg fun ⟨hs, hw⟩ => h hs (quotientOverflows_iff.2 hw))

/-- Settles O17: without CF.D interrupt 6, with it the three outcomes of a division, the defined one in either mode. -/
theorem divGivesQuotient : Obligations.DivGivesQuotient := by
  refine ⟨Laws.MatchesRow.divR, Laws.MatchesRow.divI, fun s rd i b h => ?_⟩
  rw [exec_div h]
  refine ⟨fun (he : s.hasExt .div = false) => needsExt_absent_entered he, fun (he : s.hasExt .div = true) => ?_⟩
  rw [needsExt_present he]
  refine ⟨fun hb (hs : s.signed = false) => ?unsigned, fun hb (hs : s.signed = true) hfits => ?signed,
    fun hs ha hb => ?overflow, fun hb hi => ?zero⟩
  case unsigned =>
    rw [divide_defined hb (by simp [hs]), hs]
    exact resultSz_spec (quotient_unsigned_toNat _ b)
  case signed =>
    rw [divide_defined hb fun _ => hfits, hs]
    exact resultSz_spec (quotient_signed_toInt hfits)
  case overflow =>
    exact ⟨_, divide_overflow hs ⟨ha, hb⟩, onlyRegAndFlags_written s rd _ _ 5, rfl, rfl⟩
  case zero =>
    subst hb
    obtain ⟨t, ht, hentered⟩ := raise_entered (s := (s.undefResult rd).clearUi) ⟨4, s.ip, 0, 0, 0⟩ hi
    exact ⟨t, _, (divide_zero rd s).trans ht, hentered, onlyRegAndFlags_written s rd _ _ 5, rfl, rfl⟩

end Sys2Proof.Machine
end

section
/-! PROOFS. The statements about sums, differences, logic and shifts (45_alu_logic_shift.md): ADD, SUB, NOT, AND, ORR,
XOR, SHL and SHR, each with its flags. The facts about a difference stand with CMP, those about a result with S and Z
of it with MUL. -/

namespace Sys2Proof.Machine

variable {s : State} {rd : RegNum} {b : Word} {i : Instr}

/-! ### A result and its four flags (R281, R282) -/

/-- ADD and SUB end in a state where R[d] is the result and FL its flags; nothing is drawn. -/
theorem resultFl_spec (rd : RegNum) (x : Word × Flags) (s : State) :
    ∃ t, resultFl rd x s = .next t ∧ t.reg rd = x.1 ∧ t.fl = x.2 ∧
      OnlyRegAndFlags rd s t ∧ t.draws = s.draws ∧ PrefixCleared t :=
  ⟨_, rfl, s.reg_setReg_self rd x.1, rfl, onlyRegAndFlags_written s rd x.1 x.2 0, rfl, rfl, rfl⟩

/-! ### ADD (R281) -/

/-- The sum wraps at 16 bits. -/
theorem addC_toNat (a b : Word) (cin : Bool) :
    (addC a b cin).1.toNat = (a.toNat + b.toNat + cin.toNat) % 65536 :=
  BitVec.toNat_ofNat _ _

/-- AddC sets the four flags of its sum (R280). -/
theorem addC_sumFlags (a b : Word) (cin : Bool) : SumFlags a b cin.toNat (addC a b cin).1 (addC a b cin).2 := by
  refine ⟨signZeroOf_msb _ _ _, ?carry, ?overflow⟩
  case carry => exact decide_eq_true_iff
  case overflow =>
    simp only [addC, decide_eq_true_eq]
    omega

/-- Both forms of ADD add the second operand to R[d]. -/
theorem exec_add (h : (∃ rs, i = .addR rd rs ∧ b = s.reg rs) ∨ (∃ imm, i = .addI rd imm ∧ b = s.ui ++ imm)) :
    exec i s = add rd b s := by
  rcases h with ⟨rs, rfl, rfl⟩ | ⟨imm, rfl, rfl⟩ <;> rfl

/-- Settles O8: ADD writes R[d] and FL alone, with the sum and the flags that AddC gives it. -/
theorem addGivesSumAndFlags : Obligations.AddGivesSumAndFlags := by
  refine ⟨Laws.MatchesRow.addR, Laws.MatchesRow.addI, fun s rd i b h => ?_⟩
  obtain ⟨t, ht, hreg, hfl, hframe⟩ := resultFl_spec rd (addC (s.reg rd) b s.carryIn) s
  rw [exec_add h, ← s.carryIn_toNat]
  refine ⟨t, ht, ?sum, ?flags, hframe⟩
  case sum => rw [hreg, addC_toNat]
  case flags =>
    rw [hreg, hfl]
    exact addC_sumFlags _ b _

/-! ### SUB (R282) -/

/-- Both forms of SUB subtract the second operand from R[d]. -/
theorem exec_sub (h : (∃ rs, i = .subR rd rs ∧ b = s.reg rs) ∨ (∃ imm, i = .subI rd imm ∧ b = s.ui ++ imm)) :
    exec i s = sub rd b s := by
  rcases h with ⟨rs, rfl, rfl⟩ | ⟨imm, rfl, rfl⟩ <;> rfl

/-- Settles O9: SUB writes R[d] and FL alone, with the difference and the flags that SubB gives it. -/
theorem subGivesDifferenceAndFlags : Obligations.SubGivesDifferenceAndFlags := by
  refine ⟨Laws.MatchesRow.subR, Laws.MatchesRow.subI, fun s rd i b h => ?_⟩
  obtain ⟨t, ht, hreg, hfl, hframe⟩ := resultFl_spec rd (subB (s.reg rd) b s.carryIn) s
  rw [exec_sub h, ← s.carryIn_toNat]
  refine ⟨t, ht, ?difference, ?flags, hframe⟩
  case difference => rw [hreg, subB_toNat]
  case flags =>
    rw [hreg, hfl]
    exact subB_diffFlags _ b _

/-! ### NOT, AND, ORR and XOR (R283 to R286) -/

/-- The complement inverts each of the 16 bits, and has no other. -/
theorem getLsbD_not_of_lt (b : Word) {n : Nat} (hn : n < 16) : (~~~b).getLsbD n = !b.getLsbD n := by
  rw [BitVec.getLsbD_not, decide_eq_true hn, Bool.true_and]

/-- Settles O12: each form stores the word whose bits are the operation on the bits of its operands. -/
theorem logicWorksBitByBit : Obligations.LogicWorksBitByBit := by
  refine ⟨⟨Laws.MatchesRow.notR, Laws.MatchesRow.notI, Laws.MatchesRow.andR, Laws.MatchesRow.andI,
    Laws.MatchesRow.orrR, Laws.MatchesRow.orrI, Laws.MatchesRow.xorR, Laws.MatchesRow.xorI⟩, fun s rd rs imm => ?_⟩
  refine ⟨?notR, ?notI, ?andR, ?andI, ?orrR, ?orrI, ?xorR, ?xorI⟩
  case notR | notI => exact resultSz_spec fun n hn => getLsbD_not_of_lt _ hn
  case andR | andI => exact resultSz_spec fun n _ => BitVec.getLsbD_and
  case orrR | orrI => exact resultSz_spec fun n _ => BitVec.getLsbD_or
  case xorR | xorI => exact resultSz_spec fun n _ => BitVec.getLsbD_xor

/-! ### SHL (R287, D11) -/

/-- A shift to the left multiplies modulo 2^16, and shifts every bit out from count 16 on. -/
theorem shiftLeft_toNat (a b : Word) :
    (shiftLeft a b).toNat = if 15 < b.toNat then 0 else a.toNat * 2 ^ b.toNat % 65536 := by
  unfold shiftLeft
  split
  · rfl
  · rw [BitVec.toNat_shiftLeft, Nat.shiftLeft_eq]

/-- Both forms of SHL shift R[d] by the second operand. -/
theorem exec_shl (h : (∃ rs, i = .shlR rd rs ∧ b = s.reg rs) ∨ (∃ imm, i = .shlI rd imm ∧ b = s.ui ++ imm)) :
    exec i s = resultSz rd (shiftLeft (s.reg rd) b) s := by
  rcases h with ⟨rs, rfl, rfl⟩ | ⟨imm, rfl, rfl⟩ <;> rfl

/-- Settles O14: SHL stores the product by the power of two, with S and Z of it. -/
theorem shlMultipliesByPowerOfTwo : Obligations.ShlMultipliesByPowerOfTwo := by
  refine ⟨Laws.MatchesRow.shlR, Laws.MatchesRow.shlI, fun s rd i b h => ?_⟩
  rw [exec_shl h]
  exact resultSz_spec (shiftLeft_toNat _ b)

/-! ### SHR (R288, D11) -/

/-- A shift to the right that fills with 0 is the floor of a division of the unsigned reading. -/
theorem shiftRight_unsigned_toNat (a b : Word) :
    (shiftRight false a b).toNat = if 15 < b.toNat then 0 else a.toNat / 2 ^ b.toNat := by
  simp only [shiftRight, Bool.false_eq_true, if_false]
  split
  · rfl
  · rw [BitVec.toNat_ushiftRight, Nat.shiftRight_eq_div_pow]

/-- A shift to the right that fills with the sign is the floor of a division of the signed reading; from count 16 on
only copies of the sign are left, which are -1 or 0. -/
theorem shiftRight_signed_toInt (a b : Word) :
    (shiftRight true a b).toInt =
      if 15 < b.toNat then (if a.toInt < 0 then -1 else 0) else a.toInt / 2 ^ b.toNat := by
  simp only [shiftRight, if_true, BitVec.msb_eq_toInt, decide_eq_true_eq]
  split
  · split <;> rfl
  · rw [BitVec.toInt_sshiftRight, Int.shiftRight_eq_div_pow, Nat.cast_pow, Nat.cast_ofNat]

/-- Both forms of SHR shift R[d] by the second operand, in the mode of F1.S. -/
theorem exec_shr (h : (∃ rs, i = .shrR rd rs ∧ b = s.reg rs) ∨ (∃ imm, i = .shrI rd imm ∧ b = s.ui ++ imm)) :
    exec i s = resultSz rd (shiftRight s.signed (s.reg rd) b) s := by
  rcases h with ⟨rs, rfl, rfl⟩ | ⟨imm, rfl, rfl⟩ <;> rfl

/-- Settles O15: SHR stores the floor of the quotient in the mode of F1.S, with S and Z of it. -/
theorem shrDividesByPowerOfTwo : Obligations.ShrDividesByPowerOfTwo := by
  refine ⟨Laws.MatchesRow.shrR, Laws.MatchesRow.shrI, fun s rd i b h => ?_⟩
  rw [exec_shr h]
  cases hs : s.signed with
  | true => exact resultSz_spec ((if_pos hs).mpr (shiftRight_signed_toInt _ b))
  | false => exact resultSz_spec ((if_neg (Bool.eq_false_iff.1 hs)).mpr (shiftRight_unsigned_toNat _ b))

end Sys2Proof.Machine
end

section
/-! PROOFS. The statements about interrupts, privilege and the step (60_exceptions.md): which word a step runs, what
page faults and violations record, what enters interrupt 2, how the level changes, what a step at level 0 keeps, the
order of external interrupts, and the double fault. The statements about level 0 rest on what a step from level 0 can
answer, `step_user_answer`. -/

namespace Sys2Proof.Machine

variable {s t u : State} {i : Instr} {va : Word} {kind : AccessKind} {prefixed : Bool}

/-! ### Entering an interrupt and returning (R320, R321) -/

/-- An entry leaves what R320 lists. -/
theorem State.enteredFrom_enter (s : State) (r : IntRecord) : EnteredFrom s (s.enter r) r :=
  ⟨⟨rfl, rfl, rfl, rfl, rfl⟩, ⟨rfl, rfl, rfl⟩, ⟨rfl, rfl, rfl, rfl, rfl⟩, rfl, rfl⟩

/-- Settles O47: an entry runs at level 1, where IRT takes back what the entry saved. -/
theorem irtUndoesEntry : Obligations.IrtUndoesEntry := fun s r ign hs =>
  ⟨s.enter r, (s.enter r).leave, raise_enabled r hs, execIrt_supervisor ign rfl,
    rfl, rfl, rfl, rfl, rfl, rfl, rfl, rfl, rfl, rfl, rfl, rfl, rfl⟩

/-! ### The instruction a step runs (R310) -/

/-- A running machine with no interrupt due whose fetch translates runs the word fetched, with IP at the next
address. -/
theorem step_runs_fetched {pa : Nat} (hr : s.run = .running) (hx : s.poll.takeExternal = none)
    (hpa : (s.poll.translate s.poll.ip .execute).1 = .ok pa) :
    step s = runWord ((s.poll.translate s.poll.ip .execute).2.fetchAt pa).1
      (((s.poll.translate s.poll.ip .execute).2.fetchAt pa).2.setIp (s.poll.ip + 1)) :=
  (step_fetches hr hx).trans (fetchThen_ok hpa)

/-- A quiet machine takes no external interrupt. -/
theorem Quiet.takeExternal (h : Quiet s) : s.takeExternal = none := by
  obtain ⟨-, -, hoff | ⟨ht, hq⟩, -, -⟩ := h
  · exact State.takeExternal_disabled hoff
  · exact State.takeExternal_idle ht hq

/-- A quiet machine runs the word in memory at IP, with nothing changed but IP and the record of older words. -/
theorem Quiet.step_runs (h : Quiet s) : ∃ u, step s = runWord (readWord s.mem s.ip.toNat) u ∧ u.ip = s.ip + 1 ∧
    { u with ip := s.ip, stale := s.stale } = s := by
  have hx := h.takeExternal
  obtain ⟨hr, ha, -, hpaging, hstale⟩ := h
  have hpoll := State.poll_of_nil ha
  have hxlat := s.translate_unpaged s.ip .execute hpaging
  obtain ⟨hword, hframe⟩ := s.fetchAt_of_none s.ip.toNat hstale
  refine ⟨(s.fetchAt s.ip.toNat).2.setIp (s.ip + 1), ?_, rfl,
    (congrArg (fun x : State => { x with ip := s.ip }) hframe :)⟩
  have hstep := step_runs_fetched (pa := s.ip.toNat) hr (hpoll.symm ▸ hx) (by rw [hpoll, hxlat])
  rwa [hpoll, hxlat, hword] at hstep

/-- Settles O53: the word fetched is run as what it decodes to. -/
theorem stepRunsDecodedInstruction : Obligations.StepRunsDecodedInstruction := by
  refine ⟨fun s pa i hr hx hpa hdecode => (step_runs_fetched hr hx hpa).trans (runWord_ok hdecode),
    fun s i hquiet hdecode => ?_⟩
  obtain ⟨u, hstep, hip, hframe⟩ := hquiet.step_runs
  exact ⟨u, hstep.trans (runWord_ok hdecode), hip, hframe⟩

/-! ### A word planted where the next fetch reads (log 29) -/

/-- Unpaged, the next fetch reads at IP. -/
theorem State.fetchAddr_unpaged (h : s.paging = false) : s.fetchAddr = s.ip.toNat := by
  unfold State.fetchAddr
  rw [s.translate_unpaged s.ip .execute h]

/-- Unpaged, planting a word writes it into memory at IP and takes the older words there off the record. -/
theorem State.withFetchWord_unpaged (h : s.paging = false) (w : Word) :
    s.withFetchWord 16 w.toNat =
      { s with mem := writeWord s.mem s.ip.toNat w, stale := cellDel s.stale s.ip.toNat } := by
  have hw : BitVec.ofNat 16 (w.toNat % 2 ^ 16) = w := by
    rw [Nat.mod_eq_of_lt w.isLt, BitVec.ofNat_toNat, BitVec.setWidth_eq]
  unfold State.withFetchWord State.plantWord
  rw [hw, State.fetchAddr_unpaged h]

/-- Settles O54: with the word planted the machine is quiet, and the word decodes to the instruction it encodes. -/
theorem plantedWordRuns : Obligations.PlantedWordRuns := by
  intro s i hr ha ht hq hp
  rw [State.withFetchWord_unpaged hp]
  have hread := readWord_writeWord_self s.mem s.ip.toNat (encode i)
  have hquiet : Quiet
      { s with mem := writeWord s.mem s.ip.toNat (encode i), stale := cellDel s.stale s.ip.toNat } :=
    ⟨hr, ha, .inr ⟨ht, hq⟩, hp, cellGet_cellDel_self _ _⟩
  obtain ⟨u, hstep, hip, hframe⟩ :=
    stepRunsDecodedInstruction.2 _ i hquiet ((congrArg decode hread).trans (decodeOfEncode i))
  have hmem : u.mem = writeWord s.mem s.ip.toNat (encode i) := (congrArg State.mem hframe :)
  refine ⟨u, hstep, hip, hmem ▸ hread, fun pa hpa => hmem ▸ readWord_writeWord_of_ne s.mem _ hpa, ?_⟩
  exact (congrArg (fun x : State => { x with mem := s.mem, stale := s.stale }) hframe :)

/-! ### Page faults and permission violations (R331, R333) -/

/-- An instruction with a data access is that access, which reads or writes. -/
theorem exec_dataAccess (h : dataAccessOf s i = some (va, kind, prefixed)) :
    kind ≠ .execute ∧ ∃ body, exec i s = dataAccess prefixed va kind s body := by
  cases i with
  | mrdR | mrdI | mroR | mroI | mwrR | mwrI | mwoR | mwoI | pop | psh => cases h; exact ⟨nofun, _, rfl⟩
  | _ => cases h

/-- The kind of a data access is recorded as 0 for a read and as 1 for a write. -/
theorem AccessKind.code_of_ne_execute (h : kind ≠ .execute) : kind.code = if kind = .read then 0 else 1 := by
  cases kind with
  | read => rfl
  | write => rfl
  | execute => exact absurd rfl h

/-- What a data access raises is entered from the state before it, but for what its translation leaves and UI. -/
theorem raise_accessed (s : State) (va : Word) (kind : AccessKind) (r : IntRecord) (hs : s.intEnable = true) :
    ∃ t u, raise r (s.translate va kind).2.clearUi = .next t ∧ AccessedOnly va kind s u ∧ EnteredFrom u t r :=
  ⟨_, (s.translate va kind).2.clearUi, raise_enabled r ((Plain.translate s va kind).intEnable.trans hs),
    ⟨⟨rfl, rfl⟩, ⟨rfl, rfl⟩,
      (congrArg (fun x : State => { x with ui := s.ui, uiValid := s.uiValid }) (s.translate_frame va kind) :)⟩,
    State.enteredFrom_enter _ r⟩

/-- What a fetch raises is entered from the state before it, but for what its translation leaves. -/
theorem raise_fetched (s : State) (r : IntRecord) (hs : s.intEnable = true) :
    ∃ t u, raise r (s.translate s.ip .execute).2 = .next t ∧ FetchedOnly s.ip s u ∧ EnteredFrom u t r :=
  ⟨_, _, raise_enabled r ((Plain.translate s s.ip .execute).intEnable.trans hs),
    ⟨⟨rfl, rfl⟩, s.translate_frame s.ip .execute⟩, State.enteredFrom_enter _ r⟩

/-- A running machine with nothing pending and nothing to arrive fetches at once. -/
theorem step_fetches_idle (hr : s.run = .running) (ha : s.arrivals = []) (ht : s.pendingTimer = false)
    (hq : s.pendingIo = []) : step s = fetchThen s runWord := by
  have hpoll := State.poll_of_nil ha
  rw [step_fetches hr (hpoll.symm ▸ State.takeExternal_idle ht hq), hpoll]

/-- Settles O32: a page fault of an access, and one of a fetch, is an interrupt raised after the translation. -/
theorem pageFaultIsRestartable : Obligations.PageFaultIsRestartable := by
  refine ⟨fun i s va kind prefixed hd hx hs => ?_, fun s hr ha ht hq hx hs => ?_⟩
  · obtain ⟨-, body, hexec⟩ := exec_dataAccess hd
    rw [hexec, dataAccess_pageFault hx]
    exact raise_accessed s va kind _ hs
  · rw [step_fetches_idle hr ha ht hq, fetchThen_pageFault hx]
    exact raise_fetched s _ hs

/-- Settles O33: likewise a violation, which the check of an entry finds at level 0 with paging on alone. -/
theorem permissionViolationIsRecorded : Obligations.PermissionViolationIsRecorded := by
  refine ⟨fun i s va kind prefixed hd hx hs => ?_, fun s hr ha ht hq hx hs => ?_,
    fun _ _ _ hx => State.translate_violation hx⟩
  · obtain ⟨hkind, body, hexec⟩ := exec_dataAccess hd
    rw [hexec, dataAccess_violation hx, ← AccessKind.code_of_ne_execute hkind]
    exact raise_accessed s va kind _ hs
  · rw [step_fetches_idle hr ha ht hq, fetchThen_violation hx]
    exact raise_fetched s _ hs

/-! ### A step from level 0 (R345) -/

/-- What is out of reach at level 0: the handler table, the page table registers, paging, the PID, the ports and the
constants. -/
def State.guarded (s : State) :=
  (s.iht, s.ptAddr, s.ptBase, s.ptKnown, s.paging, s.pid, s.pidKnown, s.portTrace, s.portInputs, s.cfg)

/-- What an interrupt entry and level 1 alone change: the interrupt enable, the run state and the interrupt record. -/
def State.interruptState (s : State) :=
  (s.intEnable, s.run, s.pxId, s.pxIp, s.pxInfo0, s.pxInfo1, s.pxInfo2, s.savedPriv, s.savedUi, s.savedUiValid)

theorem State.guarded_eq_iff : t.guarded = s.guarded ↔
    t.iht = s.iht ∧ t.ptAddr = s.ptAddr ∧ t.ptBase = s.ptBase ∧ t.ptKnown = s.ptKnown ∧ t.paging = s.paging ∧
      t.pid = s.pid ∧ t.pidKnown = s.pidKnown ∧ t.portTrace = s.portTrace ∧ t.portInputs = s.portInputs ∧
      t.cfg = s.cfg := by
  simp only [State.guarded, Prod.mk.injEq]

theorem State.interruptState_eq_iff : t.interruptState = s.interruptState ↔
    t.intEnable = s.intEnable ∧ t.run = s.run ∧ t.pxId = s.pxId ∧ t.pxIp = s.pxIp ∧ t.pxInfo0 = s.pxInfo0 ∧
      t.pxInfo1 = s.pxInfo1 ∧ t.pxInfo2 = s.pxInfo2 ∧ t.savedPriv = s.savedPriv ∧ t.savedUi = s.savedUi ∧
      t.savedUiValid = s.savedUiValid := by
  simp only [State.interruptState, Prod.mk.injEq]

/-- `t` has the level, the interrupt state and all that is out of reach at level 0 as `s` has them. -/
structure UserKept (s t : State) : Prop where
  priv : t.priv = s.priv
  guarded : t.guarded = s.guarded
  interruptState : t.interruptState = s.interruptState

theorem UserKept.trans (h : UserKept s t) (h' : UserKept t u) : UserKept s u :=
  ⟨h'.priv.trans h.priv, h'.guarded.trans h.guarded, h'.interruptState.trans h.interruptState⟩

/-- A change of ordinary registers keeps them. -/
theorem UserKept.of_plain (h : Plain s t) : UserKept s t :=
  ⟨h.priv, (congrArg State.guarded h.eq :), (congrArg State.interruptState h.eq :)⟩

/-- Polling and fetching keep them. -/
theorem UserKept.of_reached (h : Reached s t) : UserKept s t :=
  ⟨h.system.1, (congrArg State.guarded h.frame :), (congrArg State.interruptState h.frame :)⟩

/-- An instruction at level 0 keeps them, or enters an interrupt from a state that does; it enters interrupt 2 only
if it needs level 1. -/
theorem exec_user_answer (hp : s.priv = .user) (h : exec i s = .next t) :
    UserKept s t ∨ ∃ u r, s.intEnable = true ∧ UserKept s u ∧ t = u.enter r ∧
      (r.id = idPrivilege → needsSupervisor i) := by
  have notSupervisor : s.priv ≠ .supervisor := by simp [hp]
  have ha := exec_answer i s
  rw [h] at ha
  cases ha with
  | plain _ hplain => exact .inl (.of_plain hplain)
  | uiWritten _ hplain => exact .inl (.of_plain hplain)
  | stored _ u _ _ _ _ _ _ hplain ht =>
    subst ht
    have hu := UserKept.of_plain hplain
    exact .inl ⟨hu.priv, hu.guarded, hu.interruptState⟩
  | entered u r hs hplain _ hcause => exact .inr ⟨u, r, hs, .of_plain hplain, rfl, fun hr => hcause hr hp⟩
  | left _ _ hsup => exact absurd hsup notSupervisor
  | halted _ _ hsup => exact absurd hsup notSupervisor
  | died _ _ hsup => exact absurd hsup notSupervisor
  | port _ hsup => exact absurd hsup notSupervisor
  | pxWritten _ hsup => exact absurd hsup notSupervisor
  | updated _ _ hsup => exact absurd hsup notSupervisor

/-- A step from level 0 keeps them, or enters an interrupt from a state that does. -/
theorem step_user_answer (hp : s.priv = .user) (h : step s = .next t) :
    UserKept s t ∨ ∃ u r, s.intEnable = true ∧ UserKept s u ∧ t = u.enter r := by
  have ha := step_answer s
  rw [h] at ha
  cases ha with
  | dead => exact .inl ⟨rfl, rfl, rfl⟩
  | external u r _ hs hu => exact .inr ⟨u, r, hs, .of_reached hu, rfl⟩
  | waiting => exact .inl (.of_reached (Reached.poll s))
  | fetchEntered u r _ hs hu => exact .inr ⟨u, r, hs, .of_reached hu, rfl⟩
  | ran i u _ _ hu hexec =>
    obtain ⟨hpriv, hintEnable, -⟩ := hu.system
    have hreached := UserKept.of_reached hu
    rcases exec_user_answer (hpriv.trans hp) hexec.symm with hkept | ⟨v, r, hs, hv, ht, -⟩
    · exact .inl (hreached.trans hkept)
    · exact .inr ⟨v, r, hintEnable ▸ hs, hreached.trans hv, ht⟩

/-- Settles O49: what is kept is kept also by an entry, but for the interrupt state, and an entry leads to
level 1. -/
theorem userStepIsIsolated : Obligations.UserStepIsIsolated := by
  intro s t hp h
  rcases step_user_answer hp h with hkept | ⟨u, r, -, hu, rfl⟩
  · exact ⟨State.guarded_eq_iff.1 hkept.guarded, fun _ => State.interruptState_eq_iff.1 hkept.interruptState⟩
  · exact ⟨State.guarded_eq_iff.1 hu.guarded, nofun⟩

/-! ### Privilege violations (R332) -/

/-- An instruction that needs level 1 is checked for it before it does anything. -/
theorem exec_needsSupervisor (h : needsSupervisor i) (s : State) :
    ∃ body, exec i s = privileged (encode i) s body := by
  rcases h with h | ⟨imm, rfl, himm⟩
  · cases i with
    | irt | hlt | hcf | pxr | pxw | prdR | prdI | pwrR | pwrI => exact ⟨_, rfl⟩
    | _ => cases h
  · exact ⟨_, exec_int_hardware himm s⟩

/-- Settles O46: the check is the same for all of them, and no other instruction enters interrupt 2 at level 0. -/
theorem privilegeViolations : Obligations.PrivilegeViolations := by
  intro i s hp hs
  refine ⟨fun hcause => ?_, ?_⟩
  · obtain ⟨body, hexec⟩ := exec_needsSupervisor hcause s
    rw [hexec]
    exact privileged_user_entered (encode i) body hp hs
  · rintro ⟨t, h, ht, hid⟩
    rcases exec_user_answer hp h with hkept | ⟨u, r, -, -, rfl, hcause⟩
    · exact nomatch ht.symm.trans (hkept.priv.trans hp)
    · rw [State.enter_pxId] at hid
      have hr : r.id = 2 := by bv_omega
      exact hcause hr

/-! ### Changes of the level (R346, R347) -/

/-- An instruction lowers the level by IRT, to a saved level 0, or by bit 2 of a write to PX[31], alone. -/
theorem exec_lowers (h : exec i s = .next t) (hs : s.priv = .supervisor) (ht : t.priv = .user) :
    (∃ ign, i = .irt ign ∧ s.savedPriv = .user) ∨ (∃ rs, i = .pxw 31 rs ∧ (s.reg rs).getLsbD 2 = true) := by
  have lowered {w : State} (hw : w.priv = s.priv) : w.priv ≠ .user := by simp [hw, hs]
  have ha := exec_answer i s
  rw [h] at ha
  cases ha with
  | plain _ hplain => exact absurd ht (lowered hplain.priv)
  | uiWritten _ hplain => exact absurd ht (lowered hplain.priv)
  | stored _ u _ _ _ _ _ _ hplain he => subst he; exact absurd ht (lowered hplain.priv)
  | entered => cases ht
  | left ign hi => exact .inl ⟨ign, hi, ht⟩
  | halted => exact absurd ht (lowered rfl)
  | died => exact absurd ht (lowered rfl)
  | port _ _ hframe => exact absurd ht (lowered (congrArg State.priv hframe :))
  | pxWritten _ _ hframe => exact absurd ht (lowered (congrArg State.priv hframe :))
  | updated rs hi =>
    rw [State.clearUi_priv, State.updateActions_priv] at ht
    refine .inr ⟨rs, hi, ?_⟩
    by_contra hbit
    exact lowered rfl ((if_neg hbit).symm.trans ht)

/-- A step that raises the level has entered an interrupt. -/
theorem step_raises (h : step s = .next t) (hs : s.priv = .user) (ht : t.priv = .supervisor) :
    ∃ u r, s.intEnable = true ∧ UserKept s u ∧ t = u.enter r := by
  rcases step_user_answer hs h with hkept | hentered
  · exact nomatch ht.symm.trans (hkept.priv.trans hs)
  · exact hentered

/-- A step that lowers the level has run an instruction that does. -/
theorem step_lowers (h : step s = .next t) (hs : s.priv = .supervisor) (ht : t.priv = .user) :
    ∃ i u, step s = exec i u ∧ Reached s u ∧
      ((∃ ign, i = .irt ign ∧ u.savedPriv = .user) ∨
        (∃ rs, i = .pxw 31 rs ∧ (u.reg rs).getLsbD 2 = true)) := by
  have ha := step_answer s
  rw [h] at ha
  cases ha with
  | dead => exact nomatch hs.symm.trans ht
  | external => cases ht
  | waiting => exact nomatch hs.symm.trans ((UserKept.of_reached (Reached.poll s)).priv.symm.trans ht)
  | fetchEntered => cases ht
  | ran i u _ _ hu hexec =>
    exact ⟨i, u, h.trans hexec, hu, exec_lowers hexec.symm ((UserKept.of_reached hu).priv.trans hs) ht⟩

/-- Settles O48: the registers and the saved level that an instruction finds are those before the step. -/
theorem privilegeChanges : Obligations.PrivilegeChanges := by
  refine ⟨fun s t h hs ht => ?_, fun i s t h hs ht => exec_lowers h hs ht, fun s t h hs ht => ?_⟩
  · obtain ⟨u, r, hi, hu, rfl⟩ := step_raises h hs ht
    obtain ⟨hiht, -⟩ := State.guarded_eq_iff.1 hu.guarded
    exact ⟨hi, rfl, hu.priv.trans hs, rfl, rfl, rfl, r.id, rfl, hiht ▸ rfl⟩
  · obtain ⟨i, u, hstep, hu, hcause⟩ := step_lowers h hs ht
    have hsaved : u.savedPriv = s.savedPriv := (congrArg State.savedPriv hu.frame :)
    have hreg (rs : RegNum) : u.reg rs = s.reg rs := (congrArg (State.reg · rs) hu.frame :)
    exact ⟨i, u, hstep, hu.frame, by simpa only [hsaved, hreg] using hcause⟩

/-! ### External interrupts (R312, R330, R335) -/

/-- With nothing new arriving, an external interrupt that is due is the step of a machine that is not dead. -/
theorem step_external (hd : s.run ≠ .dead) (ha : s.arrivals = []) (hx : s.takeExternal = some t) :
    step s = .next t := by
  unfold step
  rw [if_neg hd, State.poll_of_nil ha, hx]

/-- A pending timer request is due first. -/
theorem State.takeExternal_timer (hs : s.intEnable = true) (ht : s.pendingTimer = true) :
    s.takeExternal = some ({ s with pendingTimer := false }.enter ⟨idTimer, s.ip, 0, 0, 0⟩) := by
  simp [State.takeExternal, hs, ht]

/-- With no timer request pending, the oldest I/O request is due. -/
theorem State.takeExternal_io {q : IoRequest} {rest : List IoRequest} (hs : s.intEnable = true)
    (ht : s.pendingTimer = false) (hq : s.pendingIo = q :: rest) :
    s.takeExternal = some ({ s with pendingIo := rest }.enter ⟨idIo, s.ip, q.port, q.action.code, 0⟩) := by
  simp [State.takeExternal, hs, ht, hq]

/-- The action is recorded as 0 for a read from the port and as 1 for a write to it. -/
theorem IoAction.code_eq (a : IoAction) : a.code = if a = .readFromPort then 0 else 1 := by
  cases a with
  | readFromPort => rfl
  | writeToPort => rfl

/-- The requests that wait. -/
def State.pending (s : State) : Bool × List IoRequest := (s.pendingTimer, s.pendingIo)

/-- No instruction touches the requests that wait. -/
theorem exec_pending (h : exec i s = .next t) : t.pending = s.pending := by
  have ha := exec_answer i s
  rw [h] at ha
  cases ha with
  | plain _ hp => exact (congrArg State.pending hp.eq :)
  | uiWritten _ hp => exact (congrArg State.pending hp.eq :)
  | stored _ u _ _ _ _ _ _ hp ht => subst ht; exact (congrArg State.pending hp.eq :)
  | entered u r _ hp => exact (congrArg State.pending hp.eq :)
  | left => rfl
  | halted => rfl
  | died => rfl
  | port _ _ hframe => exact (congrArg State.pending hframe :)
  | pxWritten _ _ hframe => exact (congrArg State.pending hframe :)
  | updated rs => exact (congrArg State.pending (s.updateActions_frame (s.reg rs)) :)

/-- No word, run, touches the requests that wait. -/
theorem runWord_pending {w : Word} (h : runWord w s = .next t) : t.pending = s.pending := by
  cases hd : decode w with
  | ok i => exact exec_pending ((runWord_ok hd).symm.trans h)
  | error e => exact nomatch (runWord_error hd).symm.trans h

/-- A fetch and what it runs touch no request that waits. -/
theorem fetchThen_pending (h : fetchThen s runWord = .next t) : t.pending = s.pending := by
  have hxlat : (s.translate s.ip .execute).2.pending = s.pending :=
    (congrArg State.pending (s.translate_frame s.ip .execute) :)
  cases hx : (s.translate s.ip .execute).1 with
  | ok pa =>
    rw [fetchThen_ok hx] at h
    obtain ⟨hfetch, -, -⟩ := (s.translate s.ip .execute).2.fetchAt_frame pa
    exact (runWord_pending h).trans ((congrArg State.pending hfetch :).trans hxlat)
  | pageFault =>
    rw [fetchThen_pageFault hx] at h
    obtain ⟨-, rfl⟩ := raise_next h
    exact hxlat
  | violation =>
    rw [fetchThen_violation hx] at h
    obtain ⟨-, rfl⟩ := raise_next h
    exact hxlat
  | refused r => exact nomatch (fetchThen_refused hx).symm.trans h

/-- A halted machine with no interrupt due waits. -/
theorem step_waits (hr : s.run = .halted) (hx : s.poll.takeExternal = none) : step s = .next s.poll := by
  unfold step
  rw [hr, hx]
  rfl

/-- With interrupts disabled and nothing new arriving, a step leaves every request waiting. -/
theorem step_pending_disabled (ha : s.arrivals = []) (hs : s.intEnable = false) (h : step s = .next t) :
    t.pending = s.pending := by
  have hpoll := State.poll_of_nil ha
  have hx : s.poll.takeExternal = none := hpoll.symm ▸ State.takeExternal_disabled hs
  cases hr : s.run with
  | running =>
    rw [step_fetches hr hx, hpoll] at h
    exact fetchThen_pending h
  | halted =>
    rw [step_waits hr hx, hpoll] at h
    cases h
    rfl
  | dead =>
    cases (step_dead hr).symm.trans h
    rfl

/-- Settles O55: what is due, in the order of `State.takeExternal`, and nothing while interrupts are disabled. -/
theorem externalInterruptsAreTakenInOrder : Obligations.ExternalInterruptsAreTakenInOrder := by
  refine fun s hd ha => ⟨fun hs ht => ?_, fun q rest hs ht hq => ?_, fun t hs h => ?_⟩
  · exact ⟨_, step_external hd ha (State.takeExternal_timer hs ht), State.enteredFrom_enter _ _⟩
  · rw [← IoAction.code_eq]
    exact ⟨_, step_external hd ha (State.takeExternal_io hs ht hq), State.enteredFrom_enter _ _⟩
  · exact Prod.mk.inj (step_pending_disabled ha hs h)

/-! ### The double fault (R322) -/

/-- Settles O56: a fetch and an instruction stop the machine by an interrupt they would raise while interrupts are
disabled, and neither polling nor fetching disables them. -/
theorem doubleFaultIsTheOnlyFault : Obligations.DoubleFaultIsTheOnlyFault := by
  refine ⟨fun r _ hs => raise_disabled r hs, fun s f h => ?_⟩
  have ha := step_answer s
  rw [h] at ha
  cases ha with
  | fetchDoubleFault hs => exact ⟨rfl, hs⟩
  | ran i u _ _ hu _ hexec =>
    obtain ⟨-, hintEnable, -⟩ := hu.system
    cases hexec with
    | doubleFault hs => exact ⟨rfl, hintEnable ▸ hs⟩

end Sys2Proof.Machine
end

section
/-! PROOFS. The statements about reset and the initial memory (70_reset_and_hazards.md): the reset state, and the machine
given an image. -/

namespace Sys2Proof.Machine

variable {s : State} {image : List Word}

/-! ### The reset state (R370) -/

/-- Settles O52: each field as the model's reset state gives it. -/
theorem resetState : Obligations.ResetState := ⟨rfl, rfl, rfl, rfl, rfl, rfl⟩

/-! ### A fetch with no older word on record (20_memory.md R116) -/

/-- With no older word recorded anywhere, a fetch gives the word in memory and changes nothing. -/
theorem State.fetchAt_of_stale_nil (h : s.stale = []) (pa : Nat) : s.fetchAt pa = (readWord s.mem pa, s) := by
  obtain ⟨hword, hframe⟩ := s.fetchAt_of_none pa (by rw [h]; rfl)
  have hstale : (s.fetchAt pa).2.stale = s.stale := by
    unfold State.fetchAt
    rw [h]
    split
    · rfl
    · exact h
  rw [← hstale] at hframe
  exact Prod.ext hword hframe

/-- A quiet machine with no older word recorded anywhere runs the word in memory at IP, with nothing changed but IP. -/
theorem Quiet.step_of_stale_nil (h : Quiet s) (hstale : s.stale = []) :
    step s = runWord (readWord s.mem s.ip.toNat) (s.setIp (s.ip + 1)) := by
  have hx := h.takeExternal
  obtain ⟨hr, ha, -, hpaging, -⟩ := h
  have hpoll := State.poll_of_nil ha
  have hxlat := s.translate_unpaged s.ip .execute hpaging
  have hstep := step_runs_fetched (pa := s.ip.toNat) hr (hpoll.symm ▸ hx) (by rw [hpoll, hxlat])
  rwa [hpoll, hxlat, State.fetchAt_of_stale_nil hstale] at hstep

/-! ### The machine given an image (R371, R372) -/

/-- An image that fits into memory keeps the invariant: it is written in the canonical form, inside memory. -/
theorem State.Inv.withImage (hs : s.Inv) (hfit : image.length ≤ s.cfg.memKiw.toNat * 1024) :
    (s.withImage image).Inv :=
  { hs with
    memWf := wf_writeWords _ hs.memWf 0
    memInside := inside_writeWords _ hs.memInside (by rwa [Nat.zero_add, List.take_of_length_le hfit]) }

/-- Boot changes memory alone. -/
theorem State.boot_frame (image : List Word) : { State.boot image with mem := [] } = State.reset :=
  State.reset.withImage_frame image

/-- After boot each word of an image of at most 64 kiW reads as given, and every word above it as after reset. -/
theorem State.readWord_boot (hfit : image.length ≤ 65536) (n : Nat) :
    readWord (State.boot image).mem n = image.getD n (readWord State.reset.mem n) :=
  State.reset.readWord_withImage hfit n

/-- The machine after boot is quiet: it runs unpaged, with nothing pending and no older word on record. -/
theorem quiet_boot (image : List Word) : Quiet (State.boot image) := ⟨rfl, rfl, .inr ⟨rfl, rfl⟩, rfl, rfl⟩

/-- The first step after boot runs word 0 of the image. -/
theorem step_boot {w : Word} {rest : List Word} (hfit : (w :: rest).length ≤ 65536) :
    step (State.boot (w :: rest)) = runWord w ((State.boot (w :: rest)).setIp 1) := by
  have hword : readWord (State.boot (w :: rest)).mem 0 = w := State.readWord_boot hfit 0
  have hstep := (quiet_boot (w :: rest)).step_of_stale_nil rfl
  exact hstep.trans (congrArg (fun x => runWord x ((State.boot (w :: rest)).setIp 1)) hword)

/-- Settles O60: the image is all that boot adds to the reset state, and the machine is then quiet at address 0. -/
theorem bootRunsImage : Obligations.BootRunsImage := by
  refine fun image hfit => ⟨fun n w hw => ?_, fun n hn => ?_, State.boot_frame image,
    resetMeetsInvariant.withImage hfit, fun w rest i himage hdecode => ?_⟩
  · rw [State.readWord_boot hfit, List.getD_eq_getElem?_getD, hw, Option.getD_some]
  · rw [State.readWord_boot hfit, List.getD_eq_default _ _ hn]
  · subst himage
    exact (step_boot hfit).trans (runWord_ok hdecode)

end Sys2Proof.Machine
end
